-- ==== Sys2Proof/Word.lean ====
section
/-! DEFINITION. The word types of the HCB (spec 00_scope.md R6, R8). -/

namespace Sys2Proof

/-- A 32-bit word: a register, a count, a word of the bit stream, the host port's data (R8, R23). -/
abbrev Word := BitVec 32

/-- An 8-bit symbol, `SYM_W = 8` (R6, R12). -/
abbrev Byte := BitVec 8

/-- A node id, `IDX_W = 9` bits (R6, R34). -/
abbrev NodeId := BitVec 9

/-- A byte offset in the HCB's 64 KiB space, the 16 bits of `h_addr` (R60). -/
abbrev Offset := BitVec 16

/-- A bit-string, first bit first in time (R9); `true` is the bit 1. -/
abbrev BitString := List Bool

end Sys2Proof
end

