-- ==== Sys2Proof/Config.lean ====
section
/-! DEFINITION. What is fixed for the machine: its parameters (spec 00_scope.md R6) and the free values,
which the spec leaves open as "any value" (70_reset_and_hazards.md R262, R264; 93_implementation_defined.md). -/

namespace Sys2Proof

/-- The two named parameters of R6 that the HCB itself sees; each ranges over 1 to 4096. -/
structure Config where
  /-- `SYMBUF_DEPTH`, symbol buffer entries. -/
  symbufDepth : Nat
  /-- `BITBUF_WORDS`, bit buffer words. -/
  bitbufWords : Nat
  deriving DecidableEq, Repr

/-- The reference configuration of R6. -/
def Config.reference : Config := { symbufDepth := 4096, bitbufWords := 4096 }

/-- `BITCAP`, the bit buffer's capacity in bits (R6). -/
def Config.bitcap (c : Config) : Nat := 32 * c.bitbufWords

/-- `NSYM`, the alphabet size (R6). -/
def numSymbols : Nat := 256

/-- `NODE_MAX`, the number of NODE memory entries (R6). -/
def nodeMax : Nat := 511

/-- `LEN_MAX`, the longest code length (R6). -/
def lenMax : Nat := 255

/-- The constant that `ID` reads (R1, R24). -/
def idConstant : Word := 0x48554646#32

/-- `HCB_BASE`, the platform's base address, left open by R6 and D31.  The HCB sees offsets only.
DESIGN CHOICE (log entry 7): a constant with no body. -/
opaque Config.hcbBase : Nat

/-- The host's address of an HCB offset (R107). -/
def Config.hostAddress (off : Offset) : Nat := Config.hcbBase + off.toNat

/-! The free values of R262 and R264 (log entry 5).  The first argument numbers the reset that draws,
the second is the entry, so that every reset and every entry has a draw of its own. -/

/-- `FREQ[s]` after a reset that leaves it open. -/
opaque Config.freeFreq : Nat → Nat → Word

/-- `SYMBUF[i]` after a reset that leaves it open. -/
opaque Config.freeSym : Nat → Nat → Byte

/-- `BITBUF[w]` after a reset that leaves it open. -/
opaque Config.freeBits : Nat → Nat → Word

/-- `PENDING` after a reset (R20). -/
opaque Config.freePending : Nat → Word

/-- Whether `NODE[i]` is a leaf after a reset that leaves it open. -/
opaque Config.freeNodeIsLeaf : Nat → Nat → Bool

/-- The frequency of `NODE[i]` after a reset that leaves it open. -/
opaque Config.freeNodeFreq : Nat → Nat → Word

/-- The symbol of `NODE[i]`, if it is a leaf, after a reset that leaves it open. -/
opaque Config.freeNodeSym : Nat → Nat → Byte

/-- The left child of `NODE[i]`, if it is internal, after a reset that leaves it open. -/
opaque Config.freeNodeLeft : Nat → Nat → NodeId

/-- The right child of `NODE[i]`, if it is internal, after a reset that leaves it open. -/
opaque Config.freeNodeRight : Nat → Nat → NodeId

/-- `CV[s]` after a reset that leaves it open. -/
opaque Config.freeCv : Nat → Nat → Bool

/-- `LEN[s]` after a reset that leaves it open. -/
opaque Config.freeLen : Nat → Nat → BitVec 8

/-- Bit `j` of `BITS[s]` after a reset that leaves it open. -/
opaque Config.freeCodeBit : Nat → Nat → Nat → Bool

/-- `h_rdata` of a read in flight when `rst_n` falls (93_implementation_defined.md item 9). -/
opaque Config.freeReadData : Nat → Word

/-- `h_err` of an access in flight when `rst_n` falls (93_implementation_defined.md item 9). -/
opaque Config.freeBusError : Nat → Bool

end Sys2Proof
end

