-- ==== Sys2Proof/Syntax.lean ====
section
/-! DEFINITION. The instructions: the six commands of spec 30_encoding.md R103, one constructor for each
row of opcode_table.json. -/

namespace Sys2Proof

/-- A command (R2, R103).  The argument of ENCODE and DECODE is a count (R102). -/
inductive Instr where
  /-- `NOP` (R125). -/
  | nop
  /-- `CLRFREQ` (R126). -/
  | clrfreq
  /-- `BUILD` (R150). -/
  | build
  /-- `GENCODES` (R170). -/
  | gencodes
  /-- `ENCODE n`, `n` symbols of SYMBUF (R190). -/
  | encode (n : Nat)
  /-- `DECODE L`, `l` bits of BITBUF (R210). -/
  | decode (l : Nat)
  deriving DecidableEq, Repr

end Sys2Proof
end

