-- ==== Sys2Proof/WellFormed.lean ====
section
/-! DEFINITION. Which instructions and configurations exist (spec 30_encoding.md R102, R108; 00_scope.md R6). -/

namespace Sys2Proof

/-- The largest 24-bit argument (R102). -/
def argMax : Nat := 0xFFFFFF

/-- An instruction that a command word can carry: an argument fits 24 bits (R102; R108: "An assembler
refuses `ENCODE` or `DECODE` with an argument above 0xFFFFFF"). -/
def Instr.wf : Instr → Bool
  | .nop => true
  | .clrfreq => true
  | .build => true
  | .gencodes => true
  | .encode n => decide (n ≤ argMax)
  | .decode l => decide (l ≤ argMax)

/-- A configuration in the range of R6: both parameters are 1 to 4096. -/
def Config.wf (c : Config) : Bool :=
  decide (1 ≤ c.symbufDepth) && decide (c.symbufDepth ≤ 4096) &&
    decide (1 ≤ c.bitbufWords) && decide (c.bitbufWords ≤ 4096)

end Sys2Proof
end

