-- ==== Sys2Proof/Decode.lean ====
section
/-! DEFINITION. The command word (spec 30_encoding.md R100 to R106): its fields, the decoder, the predicate
`legal`, the encoder and the opcode table. -/

namespace Sys2Proof

/-- `OP`, bits [7:0] of the word (R101). -/
def opField (w : Word) : BitVec 8 := w.extractLsb' 0 8

/-- `ARG`, bits [31:8] of the word (R101). -/
def argField (w : Word) : BitVec 24 := w.extractLsb' 8 24

/-- Why a word is no command (R105). -/
inductive DecodeReject where
  /-- `OP` is in 0x06 to 0xFF. -/
  | reservedOpcode (op : BitVec 8)
  /-- `OP` is in 0x00 to 0x03 and `ARG` is not 0. -/
  | argumentNotZero (op : BitVec 8)
  deriving DecidableEq, Repr

/-- A command that takes no argument: `ARG` must be 0 (R103). -/
def decodeNoArg (w : Word) (i : Instr) : Except DecodeReject Instr :=
  if argField w = 0#24 then .ok i else .error (.argumentNotZero (opField w))

/-- The decoder, by the opcode map R103; the argument is zero-extended and not scaled (R102). -/
def decodeWord (w : Word) : Except DecodeReject Instr :=
  if opField w = 0x00#8 then decodeNoArg w .nop
  else if opField w = 0x01#8 then decodeNoArg w .clrfreq
  else if opField w = 0x02#8 then decodeNoArg w .build
  else if opField w = 0x03#8 then decodeNoArg w .gencodes
  else if opField w = 0x04#8 then .ok (.encode (argField w).toNat)
  else if opField w = 0x05#8 then .ok (.decode (argField w).toNat)
  else .error (.reservedOpcode (opField w))

/-- The predicate of R104, as it is written there. -/
def legal (w : Word) : Bool :=
  (decide (opField w ∈ [0x00#8, 0x01#8, 0x02#8, 0x03#8]) && decide (argField w = 0#24)) ||
    decide (opField w ∈ [0x04#8, 0x05#8])

/-- A word from its two fields, `(arg << 8) | op` (R101, R108). -/
def commandWord (arg : Nat) (op : BitVec 8) : Word :=
  ((BitVec.ofNat 24 arg).zeroExtend 32 <<< 8) ||| op.zeroExtend 32

/-- The encoder (R103, R108). -/
def encode : Instr → Word
  | .nop => commandWord 0 0x00#8
  | .clrfreq => commandWord 0 0x01#8
  | .build => commandWord 0 0x02#8
  | .gencodes => commandWord 0 0x03#8
  | .encode n => commandWord n 0x04#8
  | .decode l => commandWord l 0x05#8

/-- A row of the opcode table: a word is of the row when `word &&& mask = pattern` (R103). -/
structure OpcodeRow where
  mnemonic : String
  pattern : Word
  mask : Word
  deriving DecidableEq, Repr

/-- The match and mask pairs of R103. -/
def opcodeTable : List OpcodeRow :=
  [⟨"NOP", 0x00000000#32, 0xFFFFFFFF#32⟩,
   ⟨"CLRFREQ", 0x00000001#32, 0xFFFFFFFF#32⟩,
   ⟨"BUILD", 0x00000002#32, 0xFFFFFFFF#32⟩,
   ⟨"GENCODES", 0x00000003#32, 0xFFFFFFFF#32⟩,
   ⟨"ENCODE", 0x00000004#32, 0x000000FF#32⟩,
   ⟨"DECODE", 0x00000005#32, 0x000000FF#32⟩]

/-- Whether a word is of a row. -/
def OpcodeRow.covers (r : OpcodeRow) (w : Word) : Bool := decide (w &&& r.mask = r.pattern)

/-- The mnemonic of an instruction (R103). -/
def Instr.mnemonic : Instr → String
  | .nop => "NOP"
  | .clrfreq => "CLRFREQ"
  | .build => "BUILD"
  | .gencodes => "GENCODES"
  | .encode _ => "ENCODE"
  | .decode _ => "DECODE"

/-- The instruction of a word numbered as opcode_table.json numbers it.  A command is one 32-bit word
(R106): bits at and above `nbits` are 0, and nothing longer than 32 bits is a command (log entry 12). -/
def decodeTableWord (nbits w : Nat) : Option Instr :=
  if nbits ≤ 32 then
    match decodeWord (BitVec.ofNat 32 (w % 2 ^ nbits)) with
    | .ok i => some i
    | .error _ => none
  else none

end Sys2Proof
end

