-- ==== Sys2Proof/Machine/State.lean ====
section
/-! DEFINITION. The state of the HCB (spec 10_state.md R20), plain data, and its value right after hardware
reset (70_reset_and_hazards.md R260 to R262). -/

namespace Sys2Proof.Machine

/-- Why one step of the machine could stop. -/
inductive Fault where
  /-- `BusError` (R231): raised by `judge` (Machine/HostPort.lean) for one host access, and delivered to the
  host in that access's response; the machine goes on, so no step ends in it.  Safe. -/
  | busError
  deriving DecidableEq, Repr

/-- Why a step has no meaning. -/
inductive Refusal where
  /-- An instruction without a meaning; raised by no arm of `exec`.  Safe. -/
  | notModelled (mnemonic : String)
  deriving DecidableEq, Repr

/-- A node record, one of two variants (R11, R34). -/
inductive Node where
  /-- `Leaf(freq, sym)`. -/
  | leaf (freq : Word) (sym : Byte)
  /-- `Internal(freq, left, right)`. -/
  | internal (freq : Word) (left right : NodeId)
  deriving DecidableEq, Repr, Inhabited

/-- The code memory's entry of one symbol (R35). -/
structure CodeEntry where
  /-- `CV[s]`. -/
  valid : Bool
  /-- `LEN[s]`. -/
  len : BitVec 8
  /-- `BITS[s]`. -/
  bits : BitString
  deriving DecidableEq, Repr, Inhabited

/-- The error codes of R230. -/
inductive ErrCode where
  | none
  | emptyAlphabet
  | symbolNotInTable
  | truncatedCode
  /-- Never raised: every stored bit is 0 or 1 (R215). -/
  | invalidBit
  | decodeFromSingleLeafTree
  | illegalCommand
  | noTree
  | noCodeTable
  | freqOverflow
  | badArgument
  | bitBufOverflow
  | symBufOverflow
  deriving DecidableEq, Repr

/-- How `Exec` ends: `succeed` or `fail E(i0, i1)` (R10). -/
inductive Ending where
  | succeed
  | fail (e : ErrCode) (i0 i1 : Word)
  deriving DecidableEq, Repr

/-- A memory of the HCB: its entries in order, entry `i` at place `i`.  The memories hold words, symbols,
node records and code entries and are addressed by entry; there is no byte order (R75), so there are no
byte cells (log entry 8). -/
abbrev Memory (α : Type) := List α

/-- The memory whose entry `i` is `f i`, for `i` below the size. -/
def Memory.tabulate {α : Type} (f : Nat → α) : Nat → Memory α
  | 0 => []
  | n + 1 => f 0 :: Memory.tabulate (fun i => f (i + 1)) n

/-- A host access transaction `(write, addr, size, wdata)` (R60, R61). -/
structure Access where
  /-- `h_write`: true for a write. -/
  write : Bool
  /-- `h_addr`. -/
  addr : Offset
  /-- `h_size`: 0 is 1 byte, 1 is 2 bytes, 2 is 4 bytes, 3 is 8 bytes. -/
  size : BitVec 2
  /-- `h_wdata`. -/
  wdata : Word
  deriving DecidableEq, Repr

/-- The response `(rdata, err)` of an access (R61). -/
structure Response where
  rdata : Word
  err : Bool
  deriving DecidableEq, Repr

/-- An event that moves the machine (R7): a host access, a completion step of the engine, or an assertion
of `rst_n`, which may meet a host access in flight (R260; 93_implementation_defined.md item 9). -/
inductive Event where
  | access (a : Access)
  | engine
  | hardwareReset (inFlight : Option Access)
  deriving DecidableEq, Repr

/-- The state of the HCB (R20), and four fields that are the model's own: `cfg`, `draws`, `inputs`, `resp`. -/
structure State where
  /-- The configuration (R6), constant in every run (log entry 7). -/
  cfg : Config
  /-- `STATUS.BUSY` (R28). -/
  busy : Bool
  /-- `STATUS.DONE` (R28). -/
  done : Bool
  /-- `STATUS.ERR` (R28). -/
  err : Bool
  /-- `STATUS.OVR` (R28). -/
  ovr : Bool
  /-- `CODES_VALID`, STATUS[5] (R28, R36). -/
  codesValid : Bool
  /-- `IE.DONE_IE` (R29). -/
  doneIe : Bool
  /-- `IE.ERR_IE` (R29). -/
  errIe : Bool
  /-- `IE.OVR_IE` (R29). -/
  ovrIe : Bool
  /-- `ERRCODE` (R30). -/
  errCode : BitVec 4
  /-- `ERRINFO0` (R31). -/
  errInfo0 : Word
  /-- `ERRINFO1` (R31). -/
  errInfo1 : Word
  /-- `NODE_COUNT` (R32). -/
  nodeCount : BitVec 10
  /-- `ROOT` (R32). -/
  root : NodeId
  /-- `ENC_BITLEN` (R39). -/
  encBitLen : Word
  /-- `DEC_SYMCOUNT` (R40). -/
  decSymCount : Word
  /-- `PENDING`, the accepted command word (R41). -/
  pending : Word
  /-- FREQ memory (R33). -/
  freq : Memory Word
  /-- NODE memory (R34). -/
  node : Memory Node
  /-- Code memory, CV, LEN and BITS (R35). -/
  code : Memory CodeEntry
  /-- SYMBUF memory (R37). -/
  symbuf : Memory Byte
  /-- BITBUF memory (R38). -/
  bitbuf : Memory Word
  /-- How many resets have drawn free values (log entry 5). -/
  draws : Nat
  /-- The events still to come, next first (log entry 1). -/
  inputs : List Event
  /-- The response of the last host access (log entry 3). -/
  resp : Option Response
  deriving DecidableEq, Repr

/-- A node record that holds any value (R262). -/
def freeNode (draw i : Nat) : Node :=
  if Config.freeNodeIsLeaf draw i then .leaf (Config.freeNodeFreq draw i) (Config.freeNodeSym draw i)
  else .internal (Config.freeNodeFreq draw i) (Config.freeNodeLeft draw i) (Config.freeNodeRight draw i)

/-- A code entry that holds any value, its BITS a bit-string of its LEN (R20, R262; log entry 14). -/
def freeCodeEntry (draw s : Nat) : CodeEntry where
  valid := Config.freeCv draw s
  len := Config.freeLen draw s
  bits := Memory.tabulate (Config.freeCodeBit draw s) (Config.freeLen draw s).toNat

/-- The machine right after hardware reset (R20, R260 to R262), in the reference configuration (log entry 7):
every register at its reset value, every memory entry and PENDING any value (log entry 5), and no event to
come (log entry 9). -/
def State.reset : State where
  cfg := Config.reference
  busy := false
  done := false
  err := false
  ovr := false
  codesValid := false
  doneIe := false
  errIe := false
  ovrIe := false
  errCode := 0#4
  errInfo0 := 0#32
  errInfo1 := 0#32
  nodeCount := 0#10
  root := 0#9
  encBitLen := 0#32
  decSymCount := 0#32
  pending := Config.freePending 0
  freq := Memory.tabulate (Config.freeFreq 0) numSymbols
  node := Memory.tabulate (freeNode 0) nodeMax
  code := Memory.tabulate (freeCodeEntry 0) numSymbols
  symbuf := Memory.tabulate (Config.freeSym 0) Config.reference.symbufDepth
  bitbuf := Memory.tabulate (Config.freeBits 0) Config.reference.bitbufWords
  draws := 1
  inputs := []
  resp := none

end Sys2Proof.Machine
end

