-- ==== Sys2Proof/Machine/Ops.lean ====
section
/-! DEFINITION. The shared operations over memory and registers: reading and writing an entry, acceptance and
its start effects (spec 40_control.md R120 to R122), completion and error entry (R123; 60_exceptions.md R233),
acknowledgement (R237), and both resets (70_reset_and_hazards.md R260 to R264). -/

namespace Sys2Proof.Machine

/-- Entry `i` of a memory.  The default stands for an entry that does not exist: the address map (R65) and
the commands' own checks (R190, R210) keep every run from reading one (log entry 11). -/
def Memory.read {α : Type} [Inhabited α] (m : Memory α) (i : Nat) : α := m.getD i default

/-- Entry `i` becomes `v`; an entry that does not exist is not made (log entry 11). -/
def Memory.write {α : Type} (m : Memory α) (i : Nat) (v : α) : Memory α := m.set i v

/-- The memory has exactly `n` entries.  Every memory has one form only: its entries in order. -/
def Memory.wf {α : Type} (n : Nat) (m : Memory α) : Bool := decide (m.length = n)

/-! ## The fields, one by one -/

/-- The events still to come. -/
def State.withInputs (s : State) (evs : List Event) : State := { s with inputs := evs }

/-- The host port answers `(rdata, err)` (R61). -/
def State.withResponse (s : State) (rdata : Word) (err : Bool) : State :=
  { s with resp := some { rdata := rdata, err := err } }

/-- FREQ memory is replaced. -/
def State.withFreq (s : State) (m : Memory Word) : State := { s with freq := m }

/-- NODE memory is replaced. -/
def State.withNode (s : State) (m : Memory Node) : State := { s with node := m }

/-- Code memory is replaced. -/
def State.withCode (s : State) (m : Memory CodeEntry) : State := { s with code := m }

/-- SYMBUF is replaced. -/
def State.withSymbuf (s : State) (m : Memory Byte) : State := { s with symbuf := m }

/-- BITBUF is replaced. -/
def State.withBitbuf (s : State) (m : Memory Word) : State := { s with bitbuf := m }

/-- `NODE_COUNT` and `ROOT`, which BUILD writes together (R32). -/
def State.withTree (s : State) (count : BitVec 10) (root : NodeId) : State :=
  { s with nodeCount := count, root := root }

/-- `CODES_VALID` (R36). -/
def State.withCodesValid (s : State) (b : Bool) : State := { s with codesValid := b }

/-- `ENC_BITLEN` (R39). -/
def State.withEncBitLen (s : State) (v : Word) : State := { s with encBitLen := v }

/-- `DEC_SYMCOUNT` (R40). -/
def State.withDecSymCount (s : State) (v : Word) : State := { s with decSymCount := v }

/-- The three enables of `IE` (R29). -/
def State.withEnables (s : State) (doneIe errIe ovrIe : Bool) : State :=
  { s with doneIe := doneIe, errIe := errIe, ovrIe := ovrIe }

/-! ## Error entry, completion and acknowledgement -/

/-- The number of an error code (R230). -/
def ErrCode.code : ErrCode → BitVec 4
  | .none => 0#4
  | .emptyAlphabet => 1#4
  | .symbolNotInTable => 2#4
  | .truncatedCode => 3#4
  | .invalidBit => 4#4
  | .decodeFromSingleLeafTree => 5#4
  | .illegalCommand => 6#4
  | .noTree => 7#4
  | .noCodeTable => 8#4
  | .freqOverflow => 9#4
  | .badArgument => 10#4
  | .bitBufOverflow => 11#4
  | .symBufOverflow => 12#4

/-- Error entry (R233): the engine becomes idle, `ERR` is set, and the code and both information words are
recorded; `DONE` keeps its value, 0 since acceptance. -/
def errorEntry (e : ErrCode) (i0 i1 : Word) (s : State) : State :=
  { s with busy := false, err := true, errCode := e.code, errInfo0 := i0, errInfo1 := i1 }

/-- Completion without error (R123). -/
def completeDone (s : State) : State := { s with busy := false, done := true }

/-- The completion step's record of how `Exec` ended (R123). -/
def finish (e : Ending) (s : State) : State :=
  match e with
  | .succeed => completeDone s
  | .fail e i0 i1 => errorEntry e i0 i1 s

/-- The host acknowledges: a write of `v` to `STATUS` clears the bits written 1 among `DONE`, `ERR`, `OVR`
(R237).  There is no return-from-error command (R236). -/
def acknowledge (v : Word) (s : State) : State :=
  { s with
    done := s.done && !v.getLsbD 1
    err := s.err && !v.getLsbD 2
    ovr := s.ovr && !v.getLsbD 3 }

/-! ## Command issue -/

/-- The start effects of a legal word (R121). -/
def startEffects (i : Instr) (s : State) : State :=
  match i with
  | .nop => s
  | .clrfreq => s
  | .build => (s.withTree 0#10 0#9).withCodesValid false
  | .gencodes => s.withCodesValid false
  | .encode _ => s.withEncBitLen 0#32
  | .decode _ => s.withDecSymCount 0#32

/-- What acceptance does for every word, legal or not (R120). -/
def acceptCommon (w : Word) (s : State) : State :=
  { s with
    pending := w, busy := true, done := false, err := false
    errCode := 0#4, errInfo0 := 0#32, errInfo1 := 0#32 }

/-- Acceptance of a word while idle (R120): the common part, then the start effects if the word is legal. -/
def accept (w : Word) (s : State) : State :=
  match decodeWord w with
  | .ok i => startEffects i (acceptCommon w s)
  | .error _ => acceptCommon w s

/-- Overrun (R122). -/
def overrun (s : State) : State := { s with ovr := true }

/-- A host write of `w` to `CMD` (R27): acceptance while idle, overrun while busy. -/
def issue (w : Word) (s : State) : State := if s.busy then overrun s else accept w s

/-! ## Reset -/

/-- Every register takes its reset value (R20, R261); PENDING holds any value, and the draw counter moves
on so that the next reset draws anew (log entry 5). -/
def resetRegisters (s : State) : State :=
  { s with
    busy := false, done := false, err := false, ovr := false, codesValid := false
    doneIe := false, errIe := false, ovrIe := false
    errCode := 0#4, errInfo0 := 0#32, errInfo1 := 0#32
    nodeCount := 0#10, root := 0#9, encBitLen := 0#32, decSymCount := 0#32
    pending := Config.freePending s.draws
    draws := s.draws + 1 }

/-- FREQ holds any value. -/
def drawFreq (s : State) : State := s.withFreq (Memory.tabulate (Config.freeFreq s.draws) numSymbols)

/-- NODE memory holds any value. -/
def drawNode (s : State) : State := s.withNode (Memory.tabulate (freeNode s.draws) nodeMax)

/-- Code memory holds any value. -/
def drawCode (s : State) : State := s.withCode (Memory.tabulate (freeCodeEntry s.draws) numSymbols)

/-- SYMBUF holds any value. -/
def drawSymbuf (s : State) : State :=
  s.withSymbuf (Memory.tabulate (Config.freeSym s.draws) s.cfg.symbufDepth)

/-- BITBUF holds any value. -/
def drawBitbuf (s : State) : State :=
  s.withBitbuf (Memory.tabulate (Config.freeBits s.draws) s.cfg.bitbufWords)

/-- A reset meets a busy engine: the memory that the pending command writes holds any value (R264).  For BUILD
and GENCODES that memory is unobservable after the reset (log entry 6); NOP and an illegal word write none. -/
def abandon (s : State) : State :=
  match decodeWord s.pending with
  | .ok .nop => s
  | .ok .clrfreq => drawFreq s
  | .ok .build => drawNode s
  | .ok .gencodes => drawCode s
  | .ok (.encode _) => drawBitbuf s
  | .ok (.decode _) => drawSymbuf s
  | .error _ => s

/-- Soft reset (R263): the pending command is abandoned, every register takes its reset value, and the
memories keep their contents but for what R264 says. -/
def softReset (s : State) : State := resetRegisters (if s.busy then abandon s else s)

/-- What the port answers to an access in flight when `rst_n` falls (93_implementation_defined.md item 9):
`h_err` is any value and a read returns any value; a write's `h_rdata` is 0 (R60; log entry 4). -/
def inFlightResponse (draw : Nat) (a : Access) : Response where
  rdata := if a.write then 0#32 else Config.freeReadData draw
  err := Config.freeBusError draw

/-- Hardware reset as one step (R260, R262): every memory entry holds any value, every register takes its
reset value. -/
def hardwareReset (inFlight : Option Access) (s : State) : State :=
  { resetRegisters (drawFreq (drawNode (drawCode (drawSymbuf (drawBitbuf s))))) with
    resp := inFlight.map (inFlightResponse s.draws) }

end Sys2Proof.Machine
end

