-- ==== Sys2Proof/Machine/Operands.lean ====
section
/-! DEFINITION. How commands and windows read their operands: bits of words (spec 00_scope.md R8), the bit
stream (20_memory.md R76; 43_encoder.md R191), node records (10_state.md R34) and priority keys
(41_tree_builder.md R151). -/

namespace Sys2Proof.Machine

/-! ## Bits -/

/-- The `n`-bit value whose bits, most significant first, are `f 0, f 1, …`. -/
def msbFirst (f : Nat → Bool) : (n : Nat) → BitVec n
  | 0 => 0#0
  | n + 1 => (msbFirst f n).concat (f n)

/-- Word `w` of a bit-string packed most significant bit first and padded with 0: bit `31 - b` is bit
`32 * w + b` of the string (R71, R191). -/
def packWord (stream : BitString) (w : Nat) : Word := msbFirst (fun b => stream.getD (32 * w + b) false) 32

/-- `pack(stream, m)` (R191): the first `m` words of the bit buffer are written from the bit-string. -/
def pack (stream : BitString) : Nat → Memory Word → Memory Word
  | 0, buf => buf
  | m + 1, buf => (pack stream m buf).write m (packWord stream m)

/-- `streambit(k)` (R76). -/
def streambit (bitbuf : Memory Word) (k : Nat) : Bool := (bitbuf.read (k / 32)).getLsbD (31 - k % 32)

/-! ## Node records -/

/-- `NODE[i].freq`. -/
def Node.freq : Node → Word
  | .leaf f _ => f
  | .internal f _ _ => f

/-- `NODE[i].left`; a leaf has none, and no run asks a leaf for it (log entry 11). -/
def Node.left : Node → NodeId
  | .leaf _ _ => 0#9
  | .internal _ l _ => l

/-- `NODE[i].right`; a leaf has none, and no run asks a leaf for it (log entry 11). -/
def Node.right : Node → NodeId
  | .leaf _ _ => 0#9
  | .internal _ _ r => r

/-- Whether the record is a leaf: `IS_LEAF` (R70). -/
def Node.isLeaf : Node → Bool
  | .leaf _ _ => true
  | .internal _ _ _ => false

/-- The symbol of a leaf (R34); an internal node has none. -/
def Node.sym : Node → Byte
  | .leaf _ y => y
  | .internal _ _ _ => 0#8

/-- The priority key of a node id (R151). -/
def priorityKey (node : Memory Node) (x : Nat) : Nat × Nat := ((node.read x).freq.toNat, x)

/-- Keys compare lexicographically, lower frequency first, then lower id (R151). -/
def keyLess (a b : Nat × Nat) : Bool := decide (a.1 < b.1) || (decide (a.1 = b.1) && decide (a.2 < b.2))

end Sys2Proof.Machine
end

