-- ==== Sys2Proof/Machine/Flags.lean ====
section
/-! DEFINITION. The flags: the STATUS word (spec 10_state.md R28, R43), the IE word (R29) and the interrupt
level (60_exceptions.md R238). -/

namespace Sys2Proof.Machine

/-- A flag at a bit position of a word. -/
def flagAt (b : Bool) (pos : Nat) : Word := (BitVec.ofBool b).zeroExtend 32 <<< pos

/-- `STATUS.TREE_VALID` reads 1 exactly when `NODE_COUNT != 0` (R43). -/
def treeValid (s : State) : Bool := decide (s.nodeCount ≠ 0#10)

/-- What a read of `STATUS` returns (R28). -/
def statusWord (s : State) : Word :=
  flagAt s.busy 0 ||| flagAt s.done 1 ||| flagAt s.err 2 ||| flagAt s.ovr 3 |||
    flagAt (treeValid s) 4 ||| flagAt s.codesValid 5

/-- What a read of `IE` returns (R29). -/
def ieWord (s : State) : Word := flagAt s.doneIe 1 ||| flagAt s.errIe 2 ||| flagAt s.ovrIe 3

/-- A write of `v` to `IE` (R29); the reserved bits are ignored (R23). -/
def writeIe (v : Word) (s : State) : State := s.withEnables (v.getLsbD 1) (v.getLsbD 2) (v.getLsbD 3)

/-- The level of the `irq` output (R238). -/
def irq (s : State) : Bool := (s.done && s.doneIe) || (s.err && s.errIe) || (s.ovr && s.ovrIe)

end Sys2Proof.Machine
end

