-- ==== Sys2Proof/Machine/AddressMap.lean ====
section
/-! DEFINITION. The address map (spec 20_memory.md R64, R65, R69 to R73): what an offset names, and the offset
of each name. -/

namespace Sys2Proof.Machine

/-- The thirteen registers (R64). -/
inductive Csr where
  | id | config | ctrl | cmd | status | ie | errcode | errinfo0 | errinfo1
  | nodeCount | root | encBitlen | decSymcount
  deriving DecidableEq, Repr

/-- The place an offset names (R64): a register, or an entry of a memory region. -/
inductive Target where
  /-- A register. -/
  | csr (r : Csr)
  /-- `FREQ[s]` (R69). -/
  | freq (s : Nat)
  /-- Word `w` (0 or 1) of `NODE[i]` (R70). -/
  | node (i w : Nat)
  /-- Word `w` (0 to 15) of the code entry of symbol `s` (R71). -/
  | code (s w : Nat)
  /-- `SYMBUF[i]` (R72). -/
  | symbuf (i : Nat)
  /-- `BITBUF[w]` (R73). -/
  | bitbuf (w : Nat)
  deriving DecidableEq, Repr

/-- Whether the place is in the FREQ, NODE, CODE, SYMBUF or BITBUF region (R66). -/
def Target.isMemory : Target → Bool
  | .csr _ => false
  | .freq _ => true
  | .node _ _ => true
  | .code _ _ => true
  | .symbuf _ => true
  | .bitbuf _ => true

/-- The register of a word index, offset / 4 (R64). -/
def csrOfIndex : Nat → Option Csr
  | 0 => some .id
  | 1 => some .config
  | 2 => some .ctrl
  | 3 => some .cmd
  | 4 => some .status
  | 5 => some .ie
  | 6 => some .errcode
  | 7 => some .errinfo0
  | 8 => some .errinfo1
  | 9 => some .nodeCount
  | 10 => some .root
  | 11 => some .encBitlen
  | 12 => some .decSymcount
  | _ => none

/-- The offset of a register (R64). -/
def Csr.offset : Csr → Offset
  | .id => 0x0000#16
  | .config => 0x0004#16
  | .ctrl => 0x0008#16
  | .cmd => 0x000C#16
  | .status => 0x0010#16
  | .ie => 0x0014#16
  | .errcode => 0x0018#16
  | .errinfo0 => 0x001C#16
  | .errinfo1 => 0x0020#16
  | .nodeCount => 0x0024#16
  | .root => 0x0028#16
  | .encBitlen => 0x002C#16
  | .decSymcount => 0x0030#16

/-- The place an aligned offset names, `none` where nothing is mapped (R64, R65). -/
def resolve (c : Config) (addr : Offset) : Option Target :=
  let a := addr.toNat
  if a < 0x0400 then (csrOfIndex (a / 4)).map .csr
  else if a < 0x0800 then some (.freq ((a - 0x0400) / 4))
  else if a < 0x1000 then none
  else if a < 0x2000 then some (.node ((a - 0x1000) / 8) ((a - 0x1000) / 4 % 2))
  else if a < 0x4000 then none
  else if a < 0x8000 then some (.code ((a - 0x4000) / 64) ((a - 0x4000) / 4 % 16))
  else if a < 0xC000 then
    if (a - 0x8000) / 4 < c.symbufDepth then some (.symbuf ((a - 0x8000) / 4)) else none
  else
    if (a - 0xC000) / 4 < c.bitbufWords then some (.bitbuf ((a - 0xC000) / 4)) else none

/-- The offset of a place (R64, R69 to R73, R107). -/
def Target.offset : Target → Offset
  | .csr r => r.offset
  | .freq s => BitVec.ofNat 16 (0x0400 + 4 * s)
  | .node i w => BitVec.ofNat 16 (0x1000 + 8 * i + 4 * w)
  | .code s w => BitVec.ofNat 16 (0x4000 + 64 * s + 4 * w)
  | .symbuf i => BitVec.ofNat 16 (0x8000 + 4 * i)
  | .bitbuf w => BitVec.ofNat 16 (0xC000 + 4 * w)

/-- The places that a configuration has (R64, R65). -/
def Target.mapped (c : Config) : Target → Bool
  | .csr _ => true
  | .freq s => decide (s < 256)
  | .node i w => decide (i < 512) && decide (w < 2)
  | .code s w => decide (s < 256) && decide (w < 16)
  | .symbuf i => decide (i < c.symbufDepth)
  | .bitbuf w => decide (w < c.bitbufWords)

end Sys2Proof.Machine
end

