-- ==== Sys2Proof/Machine/HostPort.lean ====
section
/-! DEFINITION. The host port (spec 20_memory.md R60 to R74): how an access is judged, what a read returns and
what a write does. -/

namespace Sys2Proof.Machine

/-- What a register reads (R23 to R32, R39, R40); reserved bits read 0. -/
def readCsr (r : Csr) (s : State) : Word :=
  match r with
  | .id => idConstant
  | .config => BitVec.ofNat 32 s.cfg.symbufDepth ||| (BitVec.ofNat 32 s.cfg.bitbufWords <<< 16)
  | .ctrl => 0#32
  | .cmd => 0#32
  | .status => statusWord s
  | .ie => ieWord s
  | .errcode => s.errCode.zeroExtend 32
  | .errinfo0 => s.errInfo0
  | .errinfo1 => s.errInfo1
  | .nodeCount => s.nodeCount.zeroExtend 32
  | .root => s.root.zeroExtend 32
  | .encBitlen => s.encBitLen
  | .decSymcount => s.decSymCount

/-- Word 0 or word 1 of a valid node record (R70). -/
def nodeWord (n : Node) (w : Nat) : Word :=
  if w = 0 then n.freq
  else
    match n with
    | .leaf _ sym => (1#32 <<< 31) ||| sym.zeroExtend 32
    | .internal _ l r => (r.zeroExtend 32 <<< 16) ||| l.zeroExtend 32

/-- A word of the NODE region: 0 at and above `NODE_COUNT` (R70). -/
def readNode (i w : Nat) (s : State) : Word :=
  if s.nodeCount.toNat ≤ i then 0#32 else nodeWord (s.node.read i) w

/-- Word `w` of a valid code entry (R71). -/
def codeWord (c : CodeEntry) (w : Nat) : Word :=
  if w = 0 then (1#32 <<< 31) ||| c.len.zeroExtend 32
  else packWord (c.bits.take c.len.toNat) (w - 1)

/-- A word of the CODE region: 0 while the codes are not valid or the symbol has none (R71). -/
def readCode (sym w : Nat) (s : State) : Word :=
  if s.codesValid && (s.code.read sym).valid then codeWord (s.code.read sym) w else 0#32

/-- What a performed read of a place returns. -/
def hostRead (t : Target) (s : State) : Word :=
  match t with
  | .csr r => readCsr r s
  | .freq i => s.freq.read i
  | .node i w => readNode i w s
  | .code i w => readCode i w s
  | .symbuf i => (s.symbuf.read i).zeroExtend 32
  | .bitbuf w => s.bitbuf.read w

/-- What a write to a register does: `CTRL` (R26), `CMD` (R27), `STATUS` (R237), `IE` (R29); the others are
read-only and the write is a no-op (R67). -/
def writeCsr (r : Csr) (v : Word) (s : State) : State :=
  match r with
  | .id => s
  | .config => s
  | .ctrl => if v.getLsbD 0 then softReset s else s
  | .cmd => issue v s
  | .status => acknowledge v s
  | .ie => writeIe v s
  | .errcode => s
  | .errinfo0 => s
  | .errinfo1 => s
  | .nodeCount => s
  | .root => s
  | .encBitlen => s
  | .decSymcount => s

/-- What a performed write to a place does; the NODE and CODE regions are read-only (R67). -/
def hostWrite (t : Target) (v : Word) (s : State) : State :=
  match t with
  | .csr r => writeCsr r v s
  | .freq i => s.withFreq (s.freq.write i v)
  | .node _ _ => s
  | .code _ _ => s
  | .symbuf i => s.withSymbuf (s.symbuf.write i (v.extractLsb' 0 8))
  | .bitbuf w => s.withBitbuf (s.bitbuf.write w v)

/-- The checks of R68, in its order: size, alignment, mapping, busy lock. -/
def judge (a : Access) (s : State) : Except Fault Target :=
  if a.size ≠ 2#2 then .error .busError
  else if a.addr.extractLsb' 0 2 ≠ 0#2 then .error .busError
  else
    match resolve s.cfg a.addr with
    | none => .error .busError
    | some t => if t.isMemory && s.busy then .error .busError else .ok t

/-- One host access with its response (R61, R231). -/
def hostAccess (a : Access) (s : State) : State :=
  match judge a s with
  | .error .busError => s.withResponse 0#32 true
  | .ok t =>
    if a.write then (hostWrite t a.wdata s).withResponse 0#32 false
    else s.withResponse (hostRead t s) false

end Sys2Proof.Machine
end

