-- ==== Sys2Proof/Machine/Control.lean ====
section
/-! DEFINITION. The housekeeping commands NOP and CLRFREQ (spec 40_control.md R125, R126), and what an illegal
word does (30_encoding.md R105; 40_control.md R127). -/

namespace Sys2Proof.Machine

/-- `NOP` (R125): succeeds and changes no memory and no result register. -/
def execNop (s : State) : Host.Outcome State Fault Refusal := .next (finish .succeed s)

/-- `FREQ[s] <- 0` for every `s` (R126). -/
def clearedFreq : Memory Word := List.replicate numSymbols 0#32

/-- `CLRFREQ` (R126): the FrequencyTable is emptied; the tree and the code table keep their contents. -/
def execClrfreq (s : State) : Host.Outcome State Fault Refusal :=
  .next (finish .succeed (s.withFreq clearedFreq))

/-- An illegal word completes with `IllegalCommand(word, 0)` (R105, R127). -/
def execIllegal (s : State) : Host.Outcome State Fault Refusal :=
  .next (finish (.fail .illegalCommand s.pending 0#32) s)

end Sys2Proof.Machine
end

