-- ==== Sys2Proof/Machine/Builder.lean ====
section
/-! DEFINITION. The tree builder, BUILD (spec 41_tree_builder.md R150 to R157). -/

namespace Sys2Proof.Machine

/-- The present symbols in ascending order (R150, R33). -/
def presentSymbols (freq : Memory Word) : List Nat :=
  (List.range numSymbols).filter (fun s => decide (freq.read s ≠ 0#32))

/-- The sum of all counts, on natural numbers (R150). -/
def totalFreq (freq : Memory Word) : Nat :=
  ((List.range numSymbols).map (fun s => (freq.read s).toNat)).sum

/-- The leaves: from id `i` on, one leaf for each listed symbol (R150, R152). -/
def writeLeaves (freq : Memory Word) : (syms : List Nat) → (i : Nat) → Memory Node → Memory Node
  | [], _, node => node
  | s :: syms, i, node =>
    writeLeaves freq syms (i + 1) (node.write i (.leaf (freq.read s) (BitVec.ofNat 8 s)))

/-- The id of least key among `x` and the listed ids (R151). -/
def leastId (node : Memory Node) (x : Nat) : List Nat → Nat
  | [] => x
  | y :: ys => leastId node (if keyLess (priorityKey node y) (priorityKey node x) then y else x) ys

/-- The id of least key of the priority collection, and the collection without it (R150). -/
def extractLeast (node : Memory Node) : List Nat → Option (Nat × List Nat)
  | [] => none
  | x :: xs => some (leastId node x xs, (x :: xs).erase (leastId node x xs))

/-- One merge (R150): the two ids of least key, A first; `none` when the collection holds fewer than two.
The new node `next` has left child A and right child B. -/
def mergeOnce (node : Memory Node) (ids : List Nat) (next : Nat) : Option (Memory Node × List Nat) :=
  match extractLeast node ids with
  | none => none
  | some (a, ids₁) =>
    match extractLeast node ids₁ with
    | none => none
    | some (b, ids₂) =>
      some (node.write next (.internal ((node.read a).freq + (node.read b).freq)
        (BitVec.ofNat 9 a) (BitVec.ofNat 9 b)), ids₂ ++ [next])

/-- What the merging leaves: NODE memory, the priority collection, the next id. -/
structure Merged where
  node : Memory Node
  ids : List Nat
  next : Nat
  deriving DecidableEq, Repr

/-- The loop `while |P| > 1` of R150.  Each merge makes the collection smaller by one, so the size of the
collection bounds the number of rounds (R153). -/
def mergeAll : (rounds : Nat) → Memory Node → List Nat → (next : Nat) → Merged
  | 0, node, ids, next => ⟨node, ids, next⟩
  | rounds + 1, node, ids, next =>
    match mergeOnce node ids next with
    | none => ⟨node, ids, next⟩
    | some (node', ids') => mergeAll rounds node' ids' (next + 1)

/-- NODE memory and the ids after the leaves are written and merged (R150). -/
def buildTree (freq : Memory Word) (node : Memory Node) : Merged :=
  let syms := presentSymbols freq
  mergeAll syms.length (writeLeaves freq syms 0 node) (List.range syms.length) syms.length

/-- The tree is written: NODE memory, `NODE_COUNT`, `ROOT` (R150). -/
def installTree (m : Merged) (s : State) : State :=
  (s.withNode m.node).withTree (BitVec.ofNat 10 m.next) (BitVec.ofNat 9 (m.ids.headD 0))

/-- `Exec(BUILD)` (R150): the state it leaves and how it ends. -/
def runBuild (s : State) : State × Ending :=
  if presentSymbols s.freq = [] then (s, .fail .emptyAlphabet 0#32 0#32)
  else if 0xFFFFFFFF < totalFreq s.freq then
    (s, .fail .freqOverflow (BitVec.ofNat 32 (totalFreq s.freq)) (BitVec.ofNat 32 (totalFreq s.freq / 2 ^ 32)))
  else (installTree (buildTree s.freq s.node) s, .succeed)

/-- `BUILD` (R150). -/
def execBuild (s : State) : Host.Outcome State Fault Refusal :=
  .next (finish (runBuild s).2 (runBuild s).1)

end Sys2Proof.Machine
end

