-- ==== Sys2Proof/Machine/CodeTable.lean ====
section
/-! DEFINITION. The code-table generator, GENCODES (spec 42_code_table.md R170 to R172). -/

namespace Sys2Proof.Machine

/-- `CV[s] <- 0` for every `s`; LEN and BITS keep their contents (R170). -/
def clearedCodes (code : Memory CodeEntry) : Memory CodeEntry := code.map (fun c => { c with valid := false })

/-- `CV[sym] <- 1; LEN[sym] <- |p|; BITS[sym] <- p` (R170). -/
def recordCode (sym : Byte) (p : BitString) (code : Memory CodeEntry) : Memory CodeEntry :=
  code.write sym.toNat { valid := true, len := BitVec.ofNat 8 p.length, bits := p }

/-- `walk(x, p)` (R170): every leaf below `x` gets the path that leads to it, left 0 and right 1.  `levels`
bounds the depth; a tree as R44 has it is never deeper than its number of nodes (log entry 10). -/
def walk (node : Memory Node) :
    (levels : Nat) → (x : NodeId) → (p : BitString) → Memory CodeEntry → Memory CodeEntry
  | 0, _, _, code => code
  | levels + 1, x, p, code =>
    match node.read x.toNat with
    | .leaf _ sym => recordCode sym p code
    | .internal _ l r => walk node levels r (p ++ [true]) (walk node levels l (p ++ [false]) code)

/-- The code memory that GENCODES leaves for a tree (R170); a single-leaf tree gives its symbol the code
"0" (R172). -/
def generateCodes (node : Memory Node) (root : NodeId) (code : Memory CodeEntry) : Memory CodeEntry :=
  match node.read root.toNat with
  | .leaf _ sym => recordCode sym [false] (clearedCodes code)
  | .internal _ _ _ => walk node nodeMax root [] (clearedCodes code)

/-- `Exec(GENCODES)` (R170): the state it leaves and how it ends. -/
def runGencodes (s : State) : State × Ending :=
  if s.nodeCount = 0#10 then (s, .fail .noTree 0#32 0#32)
  else ((s.withCode (generateCodes s.node s.root s.code)).withCodesValid true, .succeed)

/-- `GENCODES` (R170). -/
def execGencodes (s : State) : Host.Outcome State Fault Refusal :=
  .next (finish (runGencodes s).2 (runGencodes s).1)

end Sys2Proof.Machine
end

