-- ==== Sys2Proof/Machine/Encoder.lean ====
section
/-! DEFINITION. The bit encoder, ENCODE (spec 43_encoder.md R190 to R192). -/

namespace Sys2Proof.Machine

/-- What the loop of R190 leaves: the stream so far, and how it ended. -/
structure Encoded where
  stream : BitString
  ending : Ending
  deriving DecidableEq, Repr

/-- The loop over symbols of R190, with `left` symbols to go from index `i` on. -/
def encodeLoop (s : State) : (left i : Nat) → (stream : BitString) → Encoded
  | 0, _, stream => ⟨stream, .succeed⟩
  | left + 1, i, stream =>
    let sym := s.symbuf.read i
    let c := s.code.read sym.toNat
    if c.valid = false then ⟨stream, .fail .symbolNotInTable (BitVec.ofNat 32 i) (sym.zeroExtend 32)⟩
    else if s.cfg.bitcap < stream.length + c.len.toNat then
      ⟨stream, .fail .bitBufOverflow (BitVec.ofNat 32 i) (BitVec.ofNat 32 stream.length)⟩
    else encodeLoop s left (i + 1) (stream ++ c.bits)

/-- What ENCODE writes once its loop has ended (R190): on success every word of the stream, the last padded
with 0, and `ENC_BITLEN`; on a failure the complete words of the bits produced before it (R192). -/
def writeStream (e : Encoded) (s : State) : State :=
  match e.ending with
  | .succeed =>
    (s.withBitbuf (pack e.stream ((e.stream.length + 31) / 32) s.bitbuf)).withEncBitLen
      (BitVec.ofNat 32 e.stream.length)
  | .fail _ _ _ => s.withBitbuf (pack e.stream (e.stream.length / 32) s.bitbuf)

/-- `Exec(ENCODE n)` (R190): the state it leaves and how it ends. -/
def runEncode (n : Nat) (s : State) : State × Ending :=
  if s.cfg.symbufDepth < n then
    (s, .fail .badArgument (BitVec.ofNat 32 n) (BitVec.ofNat 32 s.cfg.symbufDepth))
  else if s.codesValid = false then (s, .fail .noCodeTable 0#32 0#32)
  else (writeStream (encodeLoop s n 0 []) s, (encodeLoop s n 0 []).ending)

/-- `ENCODE n` (R190). -/
def execEncode (n : Nat) (s : State) : Host.Outcome State Fault Refusal :=
  .next (finish (runEncode n s).2 (runEncode n s).1)

end Sys2Proof.Machine
end

