-- ==== Sys2Proof/Machine/Decoder.lean ====
section
/-! DEFINITION. The bit decoder, DECODE (spec 44_decoder.md R210 to R214). -/

namespace Sys2Proof.Machine

/-- The variables of R210's loop: `j`, `cur`, `start`, and the symbol buffer as written so far. -/
structure Cursor where
  /-- `j`, the symbols emitted. -/
  count : Nat
  /-- `cur`. -/
  cur : NodeId
  /-- `start`, the stream index of the first bit of the current code. -/
  start : Nat
  /-- SYMBUF. -/
  symbuf : Memory Byte
  deriving DecidableEq, Repr

/-- `emit(sym, k)` (R210): the symbol is stored, or the buffer is full. -/
def emit (depth : Nat) (sym : Byte) (k : Nat) (c : Cursor) : Except Ending Cursor :=
  if c.count = depth then .error (.fail .symBufOverflow (BitVec.ofNat 32 c.count) (BitVec.ofNat 32 k))
  else .ok { c with count := c.count + 1, symbuf := c.symbuf.write c.count sym }

/-- One bit of a single-leaf tree (R212). -/
def decodeLeafBit (depth : Nat) (sym : Byte) (bit : Bool) (k : Nat) (c : Cursor) : Except Ending Cursor :=
  if bit then
    .error (.fail .decodeFromSingleLeafTree (BitVec.ofNat 32 c.count) (BitVec.ofNat 32 k))
  else emit depth sym k c

/-- One bit of a tree whose root is internal (R210): the cursor moves one edge, and a leaf reached is
emitted and takes the cursor back to the root. -/
def decodeTreeBit (node : Memory Node) (root : NodeId) (depth : Nat) (bit : Bool) (k : Nat) (c : Cursor) :
    Except Ending Cursor :=
  let here := node.read c.cur.toNat
  let cur := if bit then here.right else here.left
  match node.read cur.toNat with
  | .leaf _ sym => emit depth sym k { c with cur := root, start := k + 1 }
  | .internal _ _ _ => .ok { c with cur := cur }

/-- One round of R210's loop, at stream index `k`. -/
def decodeBit (s : State) (k : Nat) (c : Cursor) : Except Ending Cursor :=
  match s.node.read s.root.toNat with
  | .leaf _ sym => decodeLeafBit s.cfg.symbufDepth sym (streambit s.bitbuf k) k c
  | .internal _ _ _ => decodeTreeBit s.node s.root s.cfg.symbufDepth (streambit s.bitbuf k) k c

/-- The loop over stream bits of R210, with `left` bits to go from index `k` on; after the last bit the
cursor must be at the root (R214).  A failed round leaves the buffer as it was before that bit. -/
def decodeLoop (s : State) : (left k : Nat) → Cursor → Cursor × Ending
  | 0, _, c =>
    if c.cur ≠ s.root then
      (c, .fail .truncatedCode (BitVec.ofNat 32 c.count) (BitVec.ofNat 32 c.start))
    else (c, .succeed)
  | left + 1, k, c =>
    match decodeBit s k c with
    | .error e => (c, e)
    | .ok c' => decodeLoop s left (k + 1) c'

/-- The cursor before the first bit (R210). -/
def startCursor (s : State) : Cursor := { count := 0, cur := s.root, start := 0, symbuf := s.symbuf }

/-- What DECODE writes once its loop has ended: the emitted symbols in any case (R213), and `DEC_SYMCOUNT`
on success (R210). -/
def writeSymbols (c : Cursor) (e : Ending) (s : State) : State :=
  match e with
  | .succeed => (s.withSymbuf c.symbuf).withDecSymCount (BitVec.ofNat 32 c.count)
  | .fail _ _ _ => s.withSymbuf c.symbuf

/-- `Exec(DECODE L)` (R210): the state it leaves and how it ends. -/
def runDecode (l : Nat) (s : State) : State × Ending :=
  if s.cfg.bitcap < l then
    (s, .fail .badArgument (BitVec.ofNat 32 l) (BitVec.ofNat 32 s.cfg.bitcap))
  else if s.nodeCount = 0#10 then (s, .fail .noTree 0#32 0#32)
  else
    (writeSymbols (decodeLoop s l 0 (startCursor s)).1 (decodeLoop s l 0 (startCursor s)).2 s,
      (decodeLoop s l 0 (startCursor s)).2)

/-- `DECODE L` (R210). -/
def execDecode (l : Nat) (s : State) : Host.Outcome State Fault Refusal :=
  .next (finish (runDecode l s).2 (runDecode l s).1)

end Sys2Proof.Machine
end

