-- ==== Sys2Proof/Machine/Dispatch.lean ====
section
/-! DEFINITION. `Exec` by instruction (spec 40_control.md R127), one arm for each constructor of Instr. -/

namespace Sys2Proof.Machine

def exec (i : Instr) (s : State) : Host.Outcome State Fault Refusal :=
  match i with
  | .nop => Sys2Proof.Machine.execNop s
  | .clrfreq => Sys2Proof.Machine.execClrfreq s
  | .build => Sys2Proof.Machine.execBuild s
  | .gencodes => Sys2Proof.Machine.execGencodes s
  | .encode n => Sys2Proof.Machine.execEncode n s
  | .decode l => Sys2Proof.Machine.execDecode l s

end Sys2Proof.Machine
end

