-- ==== Sys2Proof/Machine/Engine.lean ====
section
/-! DEFINITION. The engine's completion step (spec 40_control.md R123, R127) and what each event does (00_scope.md
R7; 20_memory.md R78; 70_reset_and_hazards.md R260). -/

namespace Sys2Proof.Machine

/-- The completion step: the pending word is decoded and run to its end (R123, R127). -/
def complete (s : State) : Host.Outcome State Fault Refusal :=
  match decodeWord s.pending with
  | .ok i => exec i s
  | .error _ => execIllegal s

/-- The engine's turn: it has its step exactly while busy (R123); otherwise nothing happens (log entry 2). -/
def engineTurn (s : State) : Host.Outcome State Fault Refusal := if s.busy then complete s else .next s

/-- What an event does, once it is taken from the inputs. -/
def takeEvent (ev : Event) (s : State) : Host.Outcome State Fault Refusal :=
  match ev with
  | .access a => .next (hostAccess a s)
  | .engine => engineTurn s
  | .hardwareReset inFlight => .next (hardwareReset inFlight s)

/-- One step: the next event of the inputs, and when none is left the engine's turn (log entries 1, 2). -/
def stepOnce (s : State) : Host.Outcome State Fault Refusal :=
  match s.inputs with
  | [] => engineTurn s
  | ev :: rest => takeEvent ev (s.withInputs rest)

/-- The state in which the word is pending, as acceptance leaves it, and the engine moves next. -/
def placePending (w : Word) (s : State) : State :=
  { s with pending := w, busy := true, inputs := .engine :: s.inputs }

end Sys2Proof.Machine
end

