-- ==== Sys2Proof/Machine/Step.lean ====
section
/-! DEFINITION. One step of the machine, and how an instruction is placed for the next step. -/

namespace Sys2Proof.Machine

/-- One step of the machine (spec 00_scope.md R7; 20_memory.md R78). -/
def step (s : State) : Host.Outcome State Fault Refusal := stepOnce s

/-- `s` with the word `w` as the accepted command and the engine's completion as the next event (log entry 9);
a word longer than 32 bits does not exist (R106). -/
def State.withFetchWord (s : State) (nbits w : Nat) : State :=
  placePending (BitVec.ofNat 32 (w % 2 ^ nbits)) s

end Sys2Proof.Machine
end

