-- ==== Sys2Proof/Machine/Script.lean ====
section
/-! DEFINITION. Host scripts (spec 30_encoding.md R107 to R109): the operations, the pseudo-operations and their
expansion into events. -/

namespace Sys2Proof.Machine

/-- One 4-byte host write (R107). -/
def writeEvent (off : Offset) (v : Word) : Event :=
  .access { write := true, addr := off, size := 2#2, wdata := v }

/-- One 4-byte host read (R107). -/
def readEvent (off : Offset) : Event := .access { write := false, addr := off, size := 2#2, wdata := 0#32 }

/-- A host operation of a script (R107).  Labels and comments have no effect, and the value a checked read
expects is not an effect, so they are not here. -/
inductive HostOp where
  /-- `W <offset>, <value>`. -/
  | write (off : Offset) (v : Word)
  /-- `R <offset>`. -/
  | read (off : Offset)
  /-- `WAIT` (R109) of which `polls` reads of STATUS still find the HCB busy (log entry 15). -/
  | wait (polls : Nat)
  deriving DecidableEq, Repr

/-- The command mnemonics, `SRST` and `ACK` (R108). -/
inductive PseudoOp where
  | nop | clrfreq | build | gencodes
  | encode (n : Nat)
  | decode (l : Nat)
  | srst | ack
  deriving DecidableEq, Repr

/-- A write of an instruction's word to `CMD`; an assembler refuses an argument above 0xFFFFFF (R108). -/
def assembleCommand (i : Instr) : Option HostOp :=
  if i.wf then some (.write Csr.cmd.offset (encode i)) else none

/-- The expansion of a pseudo-operation (R108). -/
def PseudoOp.expand : PseudoOp → Option HostOp
  | .nop => assembleCommand .nop
  | .clrfreq => assembleCommand .clrfreq
  | .build => assembleCommand .build
  | .gencodes => assembleCommand .gencodes
  | .encode n => assembleCommand (.encode n)
  | .decode l => assembleCommand (.decode l)
  | .srst => some (.write Csr.ctrl.offset 0x00000001#32)
  | .ack => some (.write Csr.status.offset 0x0000000E#32)

/-- The events of a host operation.  `WAIT` is `polls` reads that find the HCB busy, then the engine's
completion, then the read that finds it idle (R109; log entry 15). -/
def HostOp.events : HostOp → List Event
  | .write off v => [writeEvent off v]
  | .read off => [readEvent off]
  | .wait polls =>
    List.replicate polls (readEvent Csr.status.offset) ++ [.engine, readEvent Csr.status.offset]

/-- The events of a script in which each line says whether the engine's turn comes right before it.  When a command
completes relative to the lines that follow it is open (R78, R124), so any line may say so; a turn that finds the
engine idle changes nothing (log entry 2). -/
def scheduledEvents (lines : List (Bool × HostOp)) : List Event :=
  lines.flatMap (fun l => (if l.1 then [.engine] else []) ++ l.2.events)

/-- The events of a script in one of its schedules: the engine has its turn in WAIT only, so no command completes
before an `R` or `W` line that stands ahead of its `WAIT`.  DESIGN CHOICE (log entry 17): R78 and R124 leave it open;
`scheduledEvents` has the other schedules. -/
def scriptEvents (ops : List HostOp) : List Event := scheduledEvents (ops.map (fun op => (false, op)))

end Sys2Proof.Machine
end

