-- ==== Sys2Proof/Safety.lean ====
section
/-! DEFINITION. What a sound state of the HCB is, in the terms claims use: the invariants that the spec gives the
state (10_state.md R28, R32, R36, R39, R40, R44), and the paths of a tree (00_scope.md R9; 42_code_table.md R170). -/

namespace Sys2Proof.Machine

/-! ## Shape of the memories -/

/-- The configuration is in range (R6) and every memory has exactly its entries (R20). -/
def State.memoryWf (s : State) : Bool :=
  s.cfg.wf && Memory.wf numSymbols s.freq && Memory.wf nodeMax s.node && Memory.wf numSymbols s.code &&
    Memory.wf s.cfg.symbufDepth s.symbuf && Memory.wf s.cfg.bitbufWords s.bitbuf

/-! ## Status bits and the error record -/

/-- The codes that this revision records: 1, 2, 3 and 5 to 12 (R215, R230). -/
def recordedCodes : List (BitVec 4) := [1#4, 2#4, 3#4, 5#4, 6#4, 7#4, 8#4, 9#4, 10#4, 11#4, 12#4]

/-- How the status bits and the error record hang together (R28, R30, R31, R120, R123): `DONE` and `ERR` are
not both set; while busy neither is, and the record is clear; with `DONE` the record is clear; with `ERR` it
holds a code; a clear code has clear information words; and a code is one of those that are recorded. -/
abbrev StatusOk (s : State) : Prop :=
  ¬(s.done = true ∧ s.err = true) ∧
  (s.busy = true → s.done = false ∧ s.err = false ∧ s.errCode = 0#4) ∧
  (s.done = true → s.errCode = 0#4) ∧
  (s.err = true → s.errCode ≠ 0#4) ∧
  (s.errCode = 0#4 → s.errInfo0 = 0#32 ∧ s.errInfo1 = 0#32) ∧
  (s.errCode ≠ 0#4 → s.errCode ∈ recordedCodes)

/-- While a legal command runs, its start effects stand (R121). -/
abbrev StartedOk (s : State) : Prop :=
  s.busy = true → ∀ i ∈ (decodeWord s.pending).toOption, startEffects i s = s

/-! ## The tree -/

/-- How many of the internal nodes `n … 2n-2` have node `i` as a child. -/
def parentCount (node : Memory Node) (n i : Nat) : Nat :=
  ((List.range (2 * n - 1)).filter (fun j => decide (n ≤ j) &&
    (decide ((node.read j).left.toNat = i) || decide ((node.read j).right.toNat = i)))).length

/-- NODE memory holds a tree over `n` symbols (R44): leaves with ascending symbols, then internal nodes whose
children are earlier and different and whose frequency is their children's sum, and every node but the last is
the child of exactly one. -/
abbrev ValidTree (node : Memory Node) (n : Nat) : Prop :=
  (∀ i < n, (node.read i).isLeaf = true) ∧
  (∀ j < n, ∀ i < j, (node.read i).sym.toNat < (node.read j).sym.toNat) ∧
  (∀ i < 2 * n - 1, n ≤ i →
    (node.read i).isLeaf = false ∧
    (node.read i).left.toNat < i ∧ (node.read i).right.toNat < i ∧ (node.read i).left ≠ (node.read i).right ∧
    (node.read i).freq.toNat =
      (node.read (node.read i).left.toNat).freq.toNat + (node.read (node.read i).right.toNat).freq.toNat) ∧
  (∀ i < 2 * n - 2, parentCount node n i = 1)

/-- The number of leaves of a tree of `NODE_COUNT = 2n - 1` nodes (R32). -/
def leafCount (s : State) : Nat := (s.nodeCount.toNat + 1) / 2

/-- `NODE_COUNT` and `ROOT` fit NODE memory (R32, R44): both 0, or `2n - 1` and `2n - 2` of a valid tree. -/
abbrev TreeOk (s : State) : Prop :=
  (s.nodeCount = 0#10 → s.root = 0#9) ∧
  (s.nodeCount ≠ 0#10 →
    1 ≤ leafCount s ∧ leafCount s ≤ 256 ∧ s.nodeCount.toNat = 2 * leafCount s - 1 ∧
    s.root.toNat = 2 * leafCount s - 2 ∧ ValidTree s.node (leafCount s))

/-! ## Codes and results -/

/-- `CODES_VALID` is 1 only when the code memory holds the codes of the current tree (R36): there is a tree,
and generating its codes again gives the same table. -/
abbrev CodesOk (s : State) : Prop :=
  s.codesValid = true → s.nodeCount ≠ 0#10 ∧ generateCodes s.node s.root s.code = s.code

/-- `ENC_BITLEN` and `DEC_SYMCOUNT` stay in their bounds (R39, R40). -/
abbrev ResultsOk (s : State) : Prop :=
  s.encBitLen.toNat ≤ s.cfg.bitcap ∧ s.decSymCount.toNat ≤ s.cfg.symbufDepth

/-- The invariant of the machine. -/
structure Inv (s : State) : Prop where
  memory : s.memoryWf = true
  status : StatusOk s
  started : StartedOk s
  tree : TreeOk s
  codes : CodesOk s
  results : ResultsOk s

/-- At the making of internal node `i`, node `x` is still in the priority collection: it is an earlier node and no
earlier internal node has it as a child (R150, R153). -/
def Unmerged (node : Memory Node) (n i x : Nat) : Prop :=
  x < i ∧ ∀ j < i, n ≤ j → (node.read j).left.toNat ≠ x ∧ (node.read j).right.toNat ≠ x

/-! ## Paths and codes of a tree, independently of the commands -/

/-- The node reached from `x` along a path, left for 0 and right for 1; `none` if a leaf is met before the
path ends (R9). -/
def follow (node : Memory Node) (x : NodeId) : BitString → Option NodeId
  | [] => some x
  | b :: p =>
    match node.read x.toNat with
    | .leaf _ _ => none
    | .internal _ l r => follow node (if b then r else l) p

/-- `p` leads from `x` to a leaf of the symbol. -/
def LeadsTo (node : Memory Node) (x : NodeId) (p : BitString) (sym : Byte) : Prop :=
  ∃ y f, follow node x p = some y ∧ node.read y.toNat = .leaf f sym

/-- `p` is the code of the symbol in the tree with this root: its path, and "0" when the root is a leaf
(R170, R172). -/
def IsCode (node : Memory Node) (root : NodeId) (sym : Byte) (p : BitString) : Prop :=
  if (node.read root.toNat).isLeaf then p = [false] ∧ (node.read root.toNat).sym = sym
  else LeadsTo node root p sym

/-- `syms` and `codes` pair every symbol with its code. -/
def AreCodes (node : Memory Node) (root : NodeId) (syms : List Byte) (codes : List BitString) : Prop :=
  List.Forall₂ (IsCode node root) syms codes

/-- The stream bits from 0 on are those of the bit-string (R76). -/
def StreamIs (bitbuf : Memory Word) (bits : BitString) : Prop :=
  ∀ k < bits.length, streambit bitbuf k = bits.getD k false

/-- The symbols that ENCODE `n` reads (R102). -/
def inputSymbols (s : State) (n : Nat) : List Byte := (List.range n).map s.symbuf.read

/-- The codes that the code memory holds for a list of symbols. -/
def storedCodes (s : State) (syms : List Byte) : List BitString := syms.map (fun y => (s.code.read y.toNat).bits)

end Sys2Proof.Machine
end

