-- ==== Sys2Proof/Certificates/Slice0/Obligations.lean ====
section
/-! DEFINITION. The statements for the provers, in the order of the spec's files. A step of the machine under an
event `ev` is written `step (s.withInputs (ev :: rest))`: it holds for every state `s` and every later schedule. -/

open Sys2Proof Sys2Proof.Machine

/-! ## Encoding (30_encoding.md) -/

/-- R101 to R103, R108: decoding the word of an instruction gives the instruction, for every argument. -/
def Obligations.EncodeThenDecodeGivesInstruction : Prop :=
  ∀ i : Instr, i.wf = true → decodeWord (encode i) = .ok i

/-- R101 to R104: a word decodes to one instruction only, and is that instruction's word. -/
def Obligations.DecodedWordIsItsEncoding : Prop :=
  ∀ (w : Word) (i : Instr), decodeWord w = .ok i → i.wf = true ∧ encode i = w

/-- R104: the decoder accepts exactly the legal words, and the predicate selects the start effects when the word
is accepted. -/
def Obligations.DecoderAcceptsExactlyLegalWords : Prop :=
  (∀ w : Word,
    (∃ i, decodeWord w = .ok i) ↔
      ((w.extractLsb' 0 8 = 0x00#8 ∨ w.extractLsb' 0 8 = 0x01#8 ∨ w.extractLsb' 0 8 = 0x02#8 ∨
          w.extractLsb' 0 8 = 0x03#8) ∧ w.extractLsb' 8 24 = 0#24) ∨
        w.extractLsb' 0 8 = 0x04#8 ∨ w.extractLsb' 0 8 = 0x05#8) ∧
  (∀ (w : Word) (s : State),
    (∃ i, decodeWord w = .ok i ∧ accept w s = startEffects i (acceptCommon w s)) ∨
      ((∀ i, decodeWord w ≠ .ok i) ∧ accept w s = acceptCommon w s))

/-- R103: a word is of a row of the match and mask table exactly when it decodes to that row's command. -/
def Obligations.OpcodeTableMatchesDecoder : Prop :=
  ∀ (w : Word) (i : Instr),
    (decodeWord w = .ok i → ∀ r ∈ opcodeTable, (r.covers w = true ↔ r.mnemonic = i.mnemonic)) ∧
    (∀ r ∈ opcodeTable, r.covers w = true → ∃ j, decodeWord w = .ok j ∧ j.mnemonic = r.mnemonic)

/-- R110: the spec's encoding examples. -/
def Obligations.SpecExampleWordsDecode : Prop :=
  decodeWord 0x00000604#32 = .ok (.encode 6) ∧ encode (.encode 6) = 0x00000604#32 ∧
  decodeWord 0x00001205#32 = .ok (.decode 18) ∧ encode (.decode 18) = 0x00001205#32 ∧
  decodeWord 0x02000005#32 = .ok (.decode 131072) ∧ encode (.decode 131072) = 0x02000005#32 ∧
  decodeWord 0x00000002#32 = .ok .build ∧ encode .build = 0x00000002#32 ∧
  decodeWord 0x00000102#32 = .error (.argumentNotZero 0x02#8) ∧
  decodeWord 0x00000006#32 = .error (.reservedOpcode 0x06#8)

/-! ## The host port (20_memory.md) -/

/-- R62: an access of a size other than 4 bytes raises BusError, whatever its address. -/
def Obligations.WrongSizeRaisesBusError : Prop :=
  ∀ (s : State) (a : Access) (rest : List Event), a.size ≠ 2#2 →
    step (s.withInputs (.access a :: rest)) = .next { s with inputs := rest, resp := some ⟨0#32, true⟩ }

/-- R63: an access at a misaligned offset raises BusError; it is not split. -/
def Obligations.MisalignedAccessRaisesBusError : Prop :=
  ∀ (s : State) (a : Access) (rest : List Event), a.addr.toNat % 4 ≠ 0 →
    step (s.withInputs (.access a :: rest)) = .next { s with inputs := rest, resp := some ⟨0#32, true⟩ }

/-- R65 (with the ranges of R64): an aligned 4-byte access to an unmapped range, or to a buffer window at or
above its depth, raises BusError. -/
def Obligations.UnmappedAccessRaisesBusError : Prop :=
  ∀ (s : State) (a : Access) (rest : List Event), a.size = 2#2 → a.addr.toNat % 4 = 0 →
    ((0x0034 ≤ a.addr.toNat ∧ a.addr.toNat ≤ 0x03FF) ∨
      (0x0800 ≤ a.addr.toNat ∧ a.addr.toNat ≤ 0x0FFF) ∨
      (0x2000 ≤ a.addr.toNat ∧ a.addr.toNat ≤ 0x3FFF) ∨
      (0x8000 ≤ a.addr.toNat ∧ a.addr.toNat ≤ 0xBFFF ∧ s.cfg.symbufDepth ≤ (a.addr.toNat - 0x8000) / 4) ∨
      (0xC000 ≤ a.addr.toNat ∧ s.cfg.bitbufWords ≤ (a.addr.toNat - 0xC000) / 4)) →
    step (s.withInputs (.access a :: rest)) = .next { s with inputs := rest, resp := some ⟨0#32, true⟩ }

/-- R66 (first two sentences): while busy an access to a memory region raises BusError, and an aligned 4-byte
access to a register's offset is performed, without an error response. -/
def Obligations.BusyLocksMemoryRegions : Prop :=
  ∀ (s : State) (a : Access) (rest : List Event), s.busy = true →
    ((0x0400 ≤ a.addr.toNat ∧ a.addr.toNat ≤ 0x07FF) ∨ (0x1000 ≤ a.addr.toNat ∧ a.addr.toNat ≤ 0x1FFF) ∨
      0x4000 ≤ a.addr.toNat →
      step (s.withInputs (.access a :: rest)) = .next { s with inputs := rest, resp := some ⟨0#32, true⟩ }) ∧
    (a.size = 2#2 → a.addr.toNat % 4 = 0 → a.addr.toNat ≤ 0x0030 →
      ∃ t d, step (s.withInputs (.access a :: rest)) = .next t ∧ t.resp = some ⟨d, false⟩)

/-- R68, completed: an access that passes all four checks is performed, with no error response. -/
def Obligations.PassedChecksPerformAccess : Prop :=
  ∀ (s : State) (a : Access) (t : Target) (rest : List Event),
    a.size = 2#2 → a.addr.toNat % 4 = 0 → resolve s.cfg a.addr = some t →
    (t.isMemory = false ∨ s.busy = false) →
    step (s.withInputs (.access a :: rest)) =
      .next (if a.write then (hostWrite t a.wdata (s.withInputs rest)).withResponse 0#32 false
        else (s.withInputs rest).withResponse (hostRead t s) false)

/-- R64, R69 to R73, R107: the address map takes the offset of every place that the configuration has back to
that place, and every such offset is aligned. -/
def Obligations.AddressMapInvertsOffsets : Prop :=
  ∀ (c : Config) (t : Target), c.wf = true → t.mapped c = true →
    resolve c t.offset = some t ∧ t.offset.toNat % 4 = 0

/-- R74: a read, performed or not, changes nothing but the response. -/
def Obligations.ReadHasNoSideEffect : Prop :=
  ∀ (s : State) (a : Access) (rest : List Event), a.write = false →
    ∃ r, step (s.withInputs (.access a :: rest)) = .next { s with inputs := rest, resp := some r }

/-- R67: a write to a read-only register, to the NODE region or to the CODE region is performed as a no-op: no
error, no state change. -/
def Obligations.WriteToReadOnlyIsNoOp : Prop :=
  ∀ (s : State) (off : Offset) (v : Word) (rest : List Event), off.toNat % 4 = 0 →
    (off.toNat ≤ 0x0004 ∨ (0x0018 ≤ off.toNat ∧ off.toNat ≤ 0x0030) ∨
      (s.busy = false ∧ 0x1000 ≤ off.toNat ∧ off.toNat ≤ 0x1FFF) ∨
      (s.busy = false ∧ 0x4000 ≤ off.toNat ∧ off.toNat ≤ 0x7FFF)) →
    step (s.withInputs (writeEvent off v :: rest)) =
      .next { s with inputs := rest, resp := some ⟨0#32, false⟩ }

/-- R69: offset 0x0400 + 4*s is FREQ[s]: a read returns it, a write replaces all 32 bits of it and nothing else. -/
def Obligations.FreqWindowReadsAndWrites : Prop :=
  ∀ (s : State) (y : Nat) (v : Word) (rest : List Event),
    s.memoryWf = true → s.busy = false → y < 256 →
    step (s.withInputs (readEvent (BitVec.ofNat 16 (0x0400 + 4 * y)) :: rest)) =
      .next { s with inputs := rest, resp := some ⟨s.freq.read y, false⟩ } ∧
    ∃ m : Memory Word, m.length = 256 ∧ m.read y = v ∧ (∀ j < 256, j ≠ y → m.read j = s.freq.read j) ∧
      step (s.withInputs (writeEvent (BitVec.ofNat 16 (0x0400 + 4 * y)) v :: rest)) =
        .next { s with inputs := rest, resp := some ⟨0#32, false⟩, freq := m }

/-- R70: the two words of a NODE entry, 0 at and above NODE_COUNT; a write is ignored. -/
def Obligations.NodeWindowReadsTree : Prop :=
  ∀ (s : State) (i : Nat) (v : Word) (rest : List Event), s.busy = false → i < 512 →
    (s.nodeCount.toNat ≤ i →
      step (s.withInputs (readEvent (BitVec.ofNat 16 (0x1000 + 8 * i)) :: rest)) =
        .next { s with inputs := rest, resp := some ⟨0#32, false⟩ } ∧
      step (s.withInputs (readEvent (BitVec.ofNat 16 (0x1004 + 8 * i)) :: rest)) =
        .next { s with inputs := rest, resp := some ⟨0#32, false⟩ }) ∧
    (i < s.nodeCount.toNat →
      step (s.withInputs (readEvent (BitVec.ofNat 16 (0x1000 + 8 * i)) :: rest)) =
        .next { s with inputs := rest, resp := some ⟨(s.node.read i).freq, false⟩ } ∧
      ∃ d : Word,
        step (s.withInputs (readEvent (BitVec.ofNat 16 (0x1004 + 8 * i)) :: rest)) =
          .next { s with inputs := rest, resp := some ⟨d, false⟩ } ∧
        (∀ f y, s.node.read i = .leaf f y →
          d.getLsbD 31 = true ∧ d.extractLsb' 8 23 = 0#23 ∧ d.extractLsb' 0 8 = y) ∧
        (∀ f l r, s.node.read i = .internal f l r →
          d.extractLsb' 25 7 = 0#7 ∧ d.extractLsb' 16 9 = r ∧ d.extractLsb' 9 7 = 0#7 ∧
          d.extractLsb' 0 9 = l)) ∧
    step (s.withInputs (writeEvent (BitVec.ofNat 16 (0x1000 + 8 * i)) v :: rest)) =
      .next { s with inputs := rest, resp := some ⟨0#32, false⟩ } ∧
    step (s.withInputs (writeEvent (BitVec.ofNat 16 (0x1004 + 8 * i)) v :: rest)) =
      .next { s with inputs := rest, resp := some ⟨0#32, false⟩ }

/-- R71: the sixteen words of a code entry, bit by bit; all 0 without a valid code; a write is ignored. -/
def Obligations.CodeWindowReadsCodes : Prop :=
  ∀ (s : State) (y w : Nat) (v : Word) (rest : List Event), s.busy = false → y < 256 → w < 16 →
    (∃ d : Word,
      step (s.withInputs (readEvent (BitVec.ofNat 16 (0x4000 + 64 * y + 4 * w)) :: rest)) =
        .next { s with inputs := rest, resp := some ⟨d, false⟩ } ∧
      (s.codesValid = false ∨ (s.code.read y).valid = false → d = 0#32) ∧
      (s.codesValid = true → (s.code.read y).valid = true → w = 0 →
        d.getLsbD 31 = true ∧ d.extractLsb' 8 23 = 0#23 ∧ d.extractLsb' 0 8 = (s.code.read y).len) ∧
      (s.codesValid = true → (s.code.read y).valid = true → 1 ≤ w → ∀ b < 32,
        d.getLsbD (31 - b) =
          (decide (32 * (w - 1) + b < (s.code.read y).len.toNat) &&
            (s.code.read y).bits.getD (32 * (w - 1) + b) false))) ∧
    step (s.withInputs (writeEvent (BitVec.ofNat 16 (0x4000 + 64 * y + 4 * w)) v :: rest)) =
      .next { s with inputs := rest, resp := some ⟨0#32, false⟩ }

/-- R72: offset 0x8000 + 4*i is SYMBUF[i], zero-extended on a read and v[7:0] on a write; above the depth the
access raises BusError. -/
def Obligations.SymbufWindowReadsAndWrites : Prop :=
  ∀ (s : State) (i : Nat) (v : Word) (rest : List Event), s.memoryWf = true → s.busy = false → i < 4096 →
    (i < s.cfg.symbufDepth →
      step (s.withInputs (readEvent (BitVec.ofNat 16 (0x8000 + 4 * i)) :: rest)) =
        .next { s with inputs := rest, resp := some ⟨(s.symbuf.read i).zeroExtend 32, false⟩ } ∧
      ∃ m : Memory Byte, m.length = s.cfg.symbufDepth ∧ m.read i = v.extractLsb' 0 8 ∧
        (∀ j < s.cfg.symbufDepth, j ≠ i → m.read j = s.symbuf.read j) ∧
        step (s.withInputs (writeEvent (BitVec.ofNat 16 (0x8000 + 4 * i)) v :: rest)) =
          .next { s with inputs := rest, resp := some ⟨0#32, false⟩, symbuf := m }) ∧
    (s.cfg.symbufDepth ≤ i →
      step (s.withInputs (readEvent (BitVec.ofNat 16 (0x8000 + 4 * i)) :: rest)) =
        .next { s with inputs := rest, resp := some ⟨0#32, true⟩ } ∧
      step (s.withInputs (writeEvent (BitVec.ofNat 16 (0x8000 + 4 * i)) v :: rest)) =
        .next { s with inputs := rest, resp := some ⟨0#32, true⟩ })

/-- R73: offset 0xC000 + 4*w is BITBUF[w]; above the last word the access raises BusError. -/
def Obligations.BitbufWindowReadsAndWrites : Prop :=
  ∀ (s : State) (i : Nat) (v : Word) (rest : List Event), s.memoryWf = true → s.busy = false → i < 4096 →
    (i < s.cfg.bitbufWords →
      step (s.withInputs (readEvent (BitVec.ofNat 16 (0xC000 + 4 * i)) :: rest)) =
        .next { s with inputs := rest, resp := some ⟨s.bitbuf.read i, false⟩ } ∧
      ∃ m : Memory Word, m.length = s.cfg.bitbufWords ∧ m.read i = v ∧
        (∀ j < s.cfg.bitbufWords, j ≠ i → m.read j = s.bitbuf.read j) ∧
        step (s.withInputs (writeEvent (BitVec.ofNat 16 (0xC000 + 4 * i)) v :: rest)) =
          .next { s with inputs := rest, resp := some ⟨0#32, false⟩, bitbuf := m }) ∧
    (s.cfg.bitbufWords ≤ i →
      step (s.withInputs (readEvent (BitVec.ofNat 16 (0xC000 + 4 * i)) :: rest)) =
        .next { s with inputs := rest, resp := some ⟨0#32, true⟩ } ∧
      step (s.withInputs (writeEvent (BitVec.ofNat 16 (0xC000 + 4 * i)) v :: rest)) =
        .next { s with inputs := rest, resp := some ⟨0#32, true⟩ })

/-! ## Registers (10_state.md) -/

/-- R23 to R32, R39, R40: what a read of each register returns, in every state; reserved bits read 0. -/
def Obligations.RegistersReadTheirFields : Prop :=
  ∀ (s : State) (rest : List Event), s.cfg.wf = true →
    (∀ off d, (off, d) ∈
        [(0x0000#16, 0x48554646#32), (0x0008#16, 0#32), (0x000C#16, 0#32),
         (0x0018#16, s.errCode.zeroExtend 32), (0x001C#16, s.errInfo0), (0x0020#16, s.errInfo1),
         (0x0024#16, s.nodeCount.zeroExtend 32), (0x0028#16, s.root.zeroExtend 32),
         (0x002C#16, s.encBitLen), (0x0030#16, s.decSymCount)] →
      step (s.withInputs (readEvent off :: rest)) =
        .next { s with inputs := rest, resp := some ⟨d, false⟩ }) ∧
    (∃ d : Word, step (s.withInputs (readEvent 0x0004#16 :: rest)) =
        .next { s with inputs := rest, resp := some ⟨d, false⟩ } ∧
      (d.extractLsb' 0 13).toNat = s.cfg.symbufDepth ∧ d.extractLsb' 13 3 = 0#3 ∧
      (d.extractLsb' 16 13).toNat = s.cfg.bitbufWords ∧ d.extractLsb' 29 3 = 0#3) ∧
    (∃ d : Word, step (s.withInputs (readEvent 0x0010#16 :: rest)) =
        .next { s with inputs := rest, resp := some ⟨d, false⟩ } ∧
      d.getLsbD 0 = s.busy ∧ d.getLsbD 1 = s.done ∧ d.getLsbD 2 = s.err ∧ d.getLsbD 3 = s.ovr ∧
      d.getLsbD 4 = decide (s.nodeCount ≠ 0#10) ∧ d.getLsbD 5 = s.codesValid ∧
      d.extractLsb' 6 26 = 0#26) ∧
    (∃ d : Word, step (s.withInputs (readEvent 0x0014#16 :: rest)) =
        .next { s with inputs := rest, resp := some ⟨d, false⟩ } ∧
      d.getLsbD 0 = false ∧ d.getLsbD 1 = s.doneIe ∧ d.getLsbD 2 = s.errIe ∧ d.getLsbD 3 = s.ovrIe ∧
      d.extractLsb' 4 28 = 0#28)

/-- R237: a write to STATUS clears the bits written 1 among DONE, ERR and OVR, busy or not, and nothing else. -/
def Obligations.StatusWriteClearsFlags : Prop :=
  ∀ (s : State) (v : Word) (rest : List Event),
    step (s.withInputs (writeEvent 0x0010#16 v :: rest)) =
      .next { s with
        inputs := rest, resp := some ⟨0#32, false⟩
        done := if v.getLsbD 1 then false else s.done
        err := if v.getLsbD 2 then false else s.err
        ovr := if v.getLsbD 3 then false else s.ovr }

/-- R29: a write to IE sets the three enables, busy or not, and nothing else. -/
def Obligations.IeWriteSetsEnables : Prop :=
  ∀ (s : State) (v : Word) (rest : List Event),
    step (s.withInputs (writeEvent 0x0014#16 v :: rest)) =
      .next { s with
        inputs := rest, resp := some ⟨0#32, false⟩
        doneIe := v.getLsbD 1, errIe := v.getLsbD 2, ovrIe := v.getLsbD 3 }

/-- R238: the level of irq in every state; it falls with the acknowledging write of all three bits. -/
def Obligations.InterruptLevelFollowsFlags : Prop :=
  (∀ s : State, irq s = true ↔
    (s.done = true ∧ s.doneIe = true) ∨ (s.err = true ∧ s.errIe = true) ∨ (s.ovr = true ∧ s.ovrIe = true)) ∧
  (∀ (s : State) (rest : List Event), ∃ t,
    step (s.withInputs (writeEvent 0x0010#16 0x0000000E#32 :: rest)) = .next t ∧ irq t = false)

/-! ## Command issue, overrun, completion (40_control.md) -/

/-- R120, R121: acceptance of every word while idle, with the start effects of each legal word and of no other. -/
def Obligations.AcceptanceAppliesStartEffects : Prop :=
  ∀ (s : State) (w : Word) (rest : List Event), s.busy = false →
    ∃ u : State,
      u = { s with
        inputs := rest, resp := some ⟨0#32, false⟩
        pending := w, busy := true, done := false, err := false
        errCode := 0#4, errInfo0 := 0#32, errInfo1 := 0#32 } ∧
      (w = 0x00000000#32 ∨ w = 0x00000001#32 →
        step (s.withInputs (writeEvent 0x000C#16 w :: rest)) = .next u) ∧
      (w = 0x00000002#32 → step (s.withInputs (writeEvent 0x000C#16 w :: rest)) =
        .next { u with nodeCount := 0#10, root := 0#9, codesValid := false }) ∧
      (w = 0x00000003#32 → step (s.withInputs (writeEvent 0x000C#16 w :: rest)) =
        .next { u with codesValid := false }) ∧
      (w.extractLsb' 0 8 = 0x04#8 → step (s.withInputs (writeEvent 0x000C#16 w :: rest)) =
        .next { u with encBitLen := 0#32 }) ∧
      (w.extractLsb' 0 8 = 0x05#8 → step (s.withInputs (writeEvent 0x000C#16 w :: rest)) =
        .next { u with decSymCount := 0#32 }) ∧
      (legal w = false → step (s.withInputs (writeEvent 0x000C#16 w :: rest)) = .next u)

/-- R122: a CMD write while busy sets OVR and does nothing else. -/
def Obligations.OverrunSetsOvrOnly : Prop :=
  ∀ (s : State) (w : Word) (rest : List Event), s.busy = true →
    step (s.withInputs (writeEvent 0x000C#16 w :: rest)) =
      .next { s with inputs := rest, resp := some ⟨0#32, false⟩, ovr := true }

/-- R123, R127: at the engine's turn while busy, a step runs the command that the pending word decodes to.  (Model's
choice, log entries 1 and 2: the engine's turn is its event, or comes when no event is left.) -/
def Obligations.StepRunsPendingCommand : Prop :=
  ∀ (s : State) (i : Instr) (rest : List Event), s.busy = true → decodeWord s.pending = .ok i →
    step (s.withInputs (.engine :: rest)) = exec i (s.withInputs rest) ∧
    step (s.withInputs []) = exec i (s.withInputs [])

/-- R105: an illegal word is accepted when idle, has no start effects, and completes with IllegalCommand. -/
def Obligations.IllegalWordCompletesWithError : Prop :=
  ∀ (s : State) (w : Word) (rest : List Event), s.busy = false →
    ((6 ≤ (w.extractLsb' 0 8).toNat) ∨ ((w.extractLsb' 0 8).toNat ≤ 3 ∧ w.extractLsb' 8 24 ≠ 0#24)) →
    ∃ t, step (s.withInputs (writeEvent 0x000C#16 w :: .engine :: rest)) = .next t ∧
      t = { s with
        inputs := .engine :: rest, resp := some ⟨0#32, false⟩
        pending := w, busy := true, done := false, err := false
        errCode := 0#4, errInfo0 := 0#32, errInfo1 := 0#32 } ∧
      step t = .next { t with
        inputs := rest, busy := false, err := true, errCode := 6#4, errInfo0 := w, errInfo1 := 0#32 }

/-- R83 (last sentence), R123: while idle the engine changes nothing, and with no event to come the machine stays
as it is. -/
def Obligations.IdleEngineChangesNothing : Prop :=
  ∀ (s : State) (rest : List Event), s.busy = false →
    step (s.withInputs (.engine :: rest)) = .next (s.withInputs rest) ∧
    step (s.withInputs []) = .next (s.withInputs [])

/-- The HCB never stops: every step from every state answers a next state (R61, R124). -/
def Obligations.EveryStepAnswersNext : Prop := ∀ s : State, ∃ t, step s = .next t

/-- R124: from every busy state, whatever the host does, the pending command has ended (by completion or by a
reset) after at most one step more than there are events to come.  (The bound counts the model's own schedule, log
entries 1 and 2; the spec bounds nothing.) -/
def Obligations.BusyFallsWithinSchedule : Prop :=
  ∀ s : State, s.busy = true → ∃ k ≤ s.inputs.length + 1, ∃ t,
    Host.Core.run Sys2Proof.core k s = .next t ∧ t.busy = false

/-- R125: the word of NOP, and no other word of its opcode; NOP completes and changes only BUSY and DONE. -/
def Obligations.NopCompletes : Prop :=
  (∀ w : Word, w.extractLsb' 0 8 = 0x00#8 → (decodeWord w = .ok .nop ↔ w = 0x00000000#32) ∧
    (w.extractLsb' 8 24 ≠ 0#24 → ∀ i, decodeWord w ≠ .ok i)) ∧
  ∀ s : State, exec .nop s = .next { s with busy := false, done := true }

/-- R126: the word of CLRFREQ, and no other word of its opcode; CLRFREQ completes, every FREQ entry is 0, nothing
else changes but BUSY and DONE, and a BUILD over the FREQ it leaves fails with EmptyAlphabet. -/
def Obligations.ClrfreqCompletes : Prop :=
  (∀ w : Word, w.extractLsb' 0 8 = 0x01#8 → (decodeWord w = .ok .clrfreq ↔ w = 0x00000001#32) ∧
    (w.extractLsb' 8 24 ≠ 0#24 → ∀ i, decodeWord w ≠ .ok i)) ∧
  ∀ s : State, ∃ m : Memory Word, m.length = 256 ∧ (∀ y < 256, m.read y = 0#32) ∧
    exec .clrfreq s = .next { s with busy := false, done := true, freq := m } ∧
    ∀ u : State, u.freq = m → exec .build u = .next { u with
      busy := false, err := true, errCode := 1#4, errInfo0 := 0#32, errInfo1 := 0#32 }

/-! ## BUILD (41_tree_builder.md) -/

/-- R150, R154, R234: the failures of BUILD and their order, with everything they leave unchanged. -/
def Obligations.BuildFailures : Prop :=
  ∀ s : State, s.memoryWf = true →
    ((∀ y < 256, s.freq.read y = 0#32) →
      exec .build s = .next { s with
        busy := false, err := true, errCode := 1#4, errInfo0 := 0#32, errInfo1 := 0#32 }) ∧
    (0xFFFFFFFF < (s.freq.map BitVec.toNat).sum →
      exec .build s = .next { s with
        busy := false, err := true, errCode := 9#4
        errInfo0 := BitVec.ofNat 32 ((s.freq.map BitVec.toNat).sum % 2 ^ 32)
        errInfo1 := BitVec.ofNat 32 ((s.freq.map BitVec.toNat).sum / 2 ^ 32) })

/-- R150, R152, R153: BUILD completes on every table that is not empty and sums to 32 bits: leaf i is the i-th
present symbol with its count, NODE_COUNT and ROOT are 2n - 1 and 2n - 2, NODE memory holds a valid tree (R44)
whose root has the sum of all counts, and nothing else changes but BUSY and DONE. -/
def Obligations.BuildCompletes : Prop :=
  ∀ (s : State) (syms : List Byte), s.memoryWf = true →
    syms.Pairwise (fun a b => a.toNat < b.toNat) → (∀ y : Byte, y ∈ syms ↔ s.freq.read y.toNat ≠ 0#32) →
    syms ≠ [] → (s.freq.map BitVec.toNat).sum ≤ 0xFFFFFFFF →
    ∃ (m : Memory Node),
      exec .build s = .next { s with
        busy := false, done := true, node := m
        nodeCount := BitVec.ofNat 10 (2 * syms.length - 1), root := BitVec.ofNat 9 (2 * syms.length - 2) } ∧
      m.length = 511 ∧
      (∀ (i : Nat) (h : i < syms.length), m.read i = .leaf (s.freq.read (syms[i]).toNat) syms[i]) ∧
      ValidTree m syms.length ∧
      (m.read (2 * syms.length - 2)).freq.toNat = (s.freq.map BitVec.toNat).sum

/-- R150, R151: the merge that makes node i takes, of the earlier ids that are no child of an earlier internal
node, the one of least key (frequency, id) as left child and the one of next least key as right child. -/
def Obligations.BuildMergesLeastKeys : Prop :=
  ∀ (s t : State), s.memoryWf = true → (∃ y < 256, s.freq.read y ≠ 0#32) →
    (s.freq.map BitVec.toNat).sum ≤ 0xFFFFFFFF → exec .build s = .next t →
    ∀ i < t.nodeCount.toNat, leafCount t ≤ i →
      Unmerged t.node (leafCount t) i (t.node.read i).left.toNat ∧
      Unmerged t.node (leafCount t) i (t.node.read i).right.toNat ∧
      ∀ x, Unmerged t.node (leafCount t) i x → x ≠ (t.node.read i).left.toNat →
        keyLess (priorityKey t.node (t.node.read i).left.toNat) (priorityKey t.node x) = true ∧
        (x ≠ (t.node.read i).right.toNat →
          keyLess (priorityKey t.node (t.node.read i).right.toNat) (priorityKey t.node x) = true)

/-- R156: BUILD's outcome is a function of FREQ alone: two states with the same FREQ agree, after BUILD, on the
valid entries of NODE memory, on the error record, and on NODE_COUNT and ROOT when it succeeds. -/
def Obligations.BuildDependsOnFreqOnly : Prop :=
  ∀ (s s' t t' : State), s.memoryWf = true → s'.memoryWf = true → s.freq = s'.freq →
    s.done = false → s'.done = false → exec .build s = .next t → exec .build s' = .next t' →
    t.done = t'.done ∧
    (t.done = true → t.nodeCount = t'.nodeCount ∧ t.root = t'.root ∧
      ∀ i < t.nodeCount.toNat, t.node.read i = t'.node.read i) ∧
    (t.done = false → t.errCode = t'.errCode ∧ t.errInfo0 = t'.errInfo0 ∧ t.errInfo1 = t'.errInfo1)

/-- R155: for every table with at least two symbols that BUILD accepts, the tree's leaf depths minimise the weighted
length among all prefix-free codes for the present symbols. -/
def Obligations.BuildIsOptimal : Prop :=
  ∀ (s t : State) (syms : List Byte) (path code : Byte → BitString), s.memoryWf = true →
    syms.Nodup → (∀ y : Byte, y ∈ syms ↔ s.freq.read y.toNat ≠ 0#32) → 2 ≤ syms.length →
    (s.freq.map BitVec.toNat).sum ≤ 0xFFFFFFFF → exec .build s = .next t →
    (∀ y ∈ syms, LeadsTo t.node t.root (path y) y) →
    (∀ y ∈ syms, ∀ z ∈ syms, y ≠ z → ¬(code y <+: code z)) →
    (syms.map (fun y => (s.freq.read y.toNat).toNat * (path y).length)).sum ≤
      (syms.map (fun y => (s.freq.read y.toNat).toNat * (code y).length)).sum

/-! ## GENCODES (42_code_table.md) -/

/-- R170 (exceptions): without a tree GENCODES fails with NoTree and changes nothing else. -/
def Obligations.GencodesWithoutTreeFails : Prop :=
  ∀ s : State, s.nodeCount = 0#10 →
    exec .gencodes s = .next { s with
      busy := false, err := true, errCode := 7#4, errInfo0 := 0#32, errInfo1 := 0#32 }

/-- R170, R172: GENCODES completes on every valid tree: a symbol has a code exactly when the tree has a leaf of it,
and its code is its path (the code "0" in a single-leaf tree); nothing changes but the code memory, CODES_VALID,
BUSY and DONE. -/
def Obligations.GencodesRecordsPaths : Prop :=
  ∀ s : State, s.memoryWf = true → s.nodeCount ≠ 0#10 → TreeOk s →
    ∃ m : Memory CodeEntry,
      exec .gencodes s = .next { s with busy := false, done := true, codesValid := true, code := m } ∧
      m.length = 256 ∧
      ∀ y : Byte,
        ((m.read y.toNat).valid = true ↔ ∃ p, IsCode s.node s.root y p) ∧
        (∀ p, IsCode s.node s.root y p → m.read y.toNat = ⟨true, BitVec.ofNat 8 p.length, p⟩)

/-- R173: after GENCODES on a valid tree no code is a prefix of another symbol's code. -/
def Obligations.CodesArePrefixFree : Prop :=
  ∀ s t : State, s.memoryWf = true → s.nodeCount ≠ 0#10 → TreeOk s → exec .gencodes s = .next t →
    ∀ y z : Byte, y ≠ z → (t.code.read y.toNat).valid = true → (t.code.read z.toNat).valid = true →
      ¬((t.code.read y.toNat).bits <+: (t.code.read z.toNat).bits)

/-- R174: over a tree of n >= 2 leaves every code has 1 to n - 1 bits, its LEN is its length, and the lengths
satisfy the Kraft equality (here times 2^255). -/
def Obligations.CodeLengthsMeetKraftEquality : Prop :=
  ∀ s t : State, s.memoryWf = true → s.nodeCount ≠ 0#10 → TreeOk s → 2 ≤ leafCount s →
    exec .gencodes s = .next t →
    (∀ y < 256, (t.code.read y).valid = true →
      1 ≤ (t.code.read y).len.toNat ∧ (t.code.read y).len.toNat ≤ leafCount s - 1 ∧
      (t.code.read y).len.toNat = (t.code.read y).bits.length) ∧
    (((List.range 256).filter (fun y => (t.code.read y).valid)).map
      (fun y => 2 ^ (255 - (t.code.read y).len.toNat))).sum = 2 ^ 255

/-! ## ENCODE (43_encoder.md) -/

/-- R190, R234: the two failures that ENCODE checks first, in their order; nothing else changes. -/
def Obligations.EncodeArgumentAndCodesChecked : Prop :=
  ∀ (s : State) (n : Nat),
    (s.cfg.symbufDepth < n →
      exec (.encode n) s = .next { s with
        busy := false, err := true, errCode := 10#4
        errInfo0 := BitVec.ofNat 32 n, errInfo1 := BitVec.ofNat 32 s.cfg.symbufDepth }) ∧
    (n ≤ s.cfg.symbufDepth → s.codesValid = false →
      exec (.encode n) s = .next { s with
        busy := false, err := true, errCode := 8#4, errInfo0 := 0#32, errInfo1 := 0#32 })

/-- R190, R191, R193: ENCODE completes when every symbol has a code and the codes fit: the stream is the
concatenation of the codes in input order, padded with 0, ENC_BITLEN is the sum of the lengths, words above are
unchanged, and nothing else changes but BUSY and DONE. -/
def Obligations.EncodeCompletes : Prop :=
  ∀ (s : State) (n : Nat), s.memoryWf = true → n ≤ s.cfg.symbufDepth → s.codesValid = true →
    (∀ y ∈ inputSymbols s n, (s.code.read y.toNat).valid = true ∧
      (s.code.read y.toNat).len.toNat = (s.code.read y.toNat).bits.length) →
    ((inputSymbols s n).map (fun y => (s.code.read y.toNat).len.toNat)).sum ≤ s.cfg.bitcap →
    ∃ (stream : BitString) (m : Memory Word),
      stream = (storedCodes s (inputSymbols s n)).flatten ∧
      stream.length = ((inputSymbols s n).map (fun y => (s.code.read y.toNat).len.toNat)).sum ∧
      exec (.encode n) s = .next { s with
        busy := false, done := true, bitbuf := m, encBitLen := BitVec.ofNat 32 stream.length } ∧
      m.length = s.bitbuf.length ∧
      StreamIs m stream ∧
      (∀ k, stream.length ≤ k → k < 32 * ((stream.length + 31) / 32) → streambit m k = false) ∧
      (∀ w, (stream.length + 31) / 32 ≤ w → w < m.length → m.read w = s.bitbuf.read w)

/-- R190, R192: ENCODE fails at the first symbol without a code, or whose code does not fit: the complete words of
the codes before it are in BITBUF, every other word and ENC_BITLEN are unchanged. -/
def Obligations.EncodeFailsAtFirstBadSymbol : Prop :=
  ∀ (s : State) (n i : Nat) (stream : BitString), s.memoryWf = true → n ≤ s.cfg.symbufDepth →
    s.codesValid = true → i < n →
    (∀ y ∈ inputSymbols s i, (s.code.read y.toNat).valid = true ∧
      (s.code.read y.toNat).len.toNat = (s.code.read y.toNat).bits.length) →
    stream = (storedCodes s (inputSymbols s i)).flatten → stream.length ≤ s.cfg.bitcap →
    ∃ m : Memory Word, m.length = s.bitbuf.length ∧
      (∀ k < 32 * (stream.length / 32), streambit m k = stream.getD k false) ∧
      (∀ w, stream.length / 32 ≤ w → w < m.length → m.read w = s.bitbuf.read w) ∧
      ((s.code.read (s.symbuf.read i).toNat).valid = false →
        exec (.encode n) s = .next { s with
          busy := false, err := true, errCode := 2#4, bitbuf := m
          errInfo0 := BitVec.ofNat 32 i, errInfo1 := (s.symbuf.read i).zeroExtend 32 }) ∧
      ((s.code.read (s.symbuf.read i).toNat).valid = true →
        s.cfg.bitcap < stream.length + (s.code.read (s.symbuf.read i).toNat).len.toNat →
        exec (.encode n) s = .next { s with
          busy := false, err := true, errCode := 11#4, bitbuf := m
          errInfo0 := BitVec.ofNat 32 i, errInfo1 := BitVec.ofNat 32 stream.length })

/-- R194: ENCODE reads no tree state: replacing FREQ, NODE memory, NODE_COUNT and ROOT changes nothing of what it
does. -/
def Obligations.EncodeReadsNoTree : Prop :=
  ∀ (s t : State) (n : Nat) (freq : Memory Word) (node : Memory Node) (count : BitVec 10) (root : NodeId),
    exec (.encode n) s = .next t →
    exec (.encode n) { s with freq := freq, node := node, nodeCount := count, root := root } =
      .next { t with freq := freq, node := node, nodeCount := count, root := root }

/-! ## DECODE (44_decoder.md) -/

/-- R210, R234: the two failures that DECODE checks first, in their order; nothing else changes. -/
def Obligations.DecodeArgumentAndTreeChecked : Prop :=
  ∀ (s : State) (l : Nat),
    (s.cfg.bitcap < l →
      exec (.decode l) s = .next { s with
        busy := false, err := true, errCode := 10#4
        errInfo0 := BitVec.ofNat 32 l, errInfo1 := BitVec.ofNat 32 s.cfg.bitcap }) ∧
    (l ≤ s.cfg.bitcap → s.nodeCount = 0#10 →
      exec (.decode l) s = .next { s with
        busy := false, err := true, errCode := 7#4, errInfo0 := 0#32, errInfo1 := 0#32 })

/-- R210 to R212: DECODE completes when the stream is a sequence of codes of the tree that fits SYMBUF: the symbols
are in SYMBUF from 0 on, every other entry is unchanged, DEC_SYMCOUNT is their number, and nothing else changes but
BUSY and DONE. -/
def Obligations.DecodeCompletes : Prop :=
  ∀ (s : State) (syms : List Byte) (codes : List BitString), s.memoryWf = true → s.nodeCount ≠ 0#10 →
    AreCodes s.node s.root syms codes → StreamIs s.bitbuf codes.flatten →
    codes.flatten.length ≤ s.cfg.bitcap → syms.length ≤ s.cfg.symbufDepth →
    ∃ m : Memory Byte,
      exec (.decode codes.flatten.length) s = .next { s with
        busy := false, done := true, symbuf := m, decSymCount := BitVec.ofNat 32 syms.length } ∧
      m.length = s.symbuf.length ∧
      (∀ j < syms.length, m.read j = syms.getD j 0#8) ∧
      (∀ j, syms.length ≤ j → j < m.length → m.read j = s.symbuf.read j)

/-- R210, R213, R214: a stream that ends inside a code, after some whole codes, fails with TruncatedCode: the
symbols before it are in SYMBUF, DEC_SYMCOUNT is unchanged, and ERRINFO1 is where the incomplete code starts. -/
def Obligations.DecodeReportsTruncatedCode : Prop :=
  ∀ (s : State) (syms : List Byte) (codes : List BitString) (tail : BitString) (x : NodeId),
    s.memoryWf = true → s.nodeCount ≠ 0#10 → TreeOk s → (s.node.read s.root.toNat).isLeaf = false →
    AreCodes s.node s.root syms codes → tail ≠ [] → follow s.node s.root tail = some x →
    (s.node.read x.toNat).isLeaf = false → StreamIs s.bitbuf (codes.flatten ++ tail) →
    (codes.flatten ++ tail).length ≤ s.cfg.bitcap → syms.length ≤ s.cfg.symbufDepth →
    ∃ m : Memory Byte,
      exec (.decode (codes.flatten ++ tail).length) s = .next { s with
        busy := false, err := true, errCode := 3#4, symbuf := m
        errInfo0 := BitVec.ofNat 32 syms.length, errInfo1 := BitVec.ofNat 32 codes.flatten.length } ∧
      m.length = s.symbuf.length ∧
      (∀ j < syms.length, m.read j = syms.getD j 0#8) ∧
      (∀ j, syms.length ≤ j → j < m.length → m.read j = s.symbuf.read j)

/-- R212, R213: with a single-leaf tree a 1 bit after k bits 0 fails with DecodeFromSingleLeafTree; the k symbols
before it are in SYMBUF. -/
def Obligations.DecodeOneBitOfSingleLeafFails : Prop :=
  ∀ (s : State) (l k : Nat) (f : Word) (y : Byte), s.memoryWf = true → s.nodeCount ≠ 0#10 →
    s.node.read s.root.toNat = .leaf f y → l ≤ s.cfg.bitcap → k < l → k ≤ s.cfg.symbufDepth →
    (∀ i < k, streambit s.bitbuf i = false) → streambit s.bitbuf k = true →
    ∃ m : Memory Byte,
      exec (.decode l) s = .next { s with
        busy := false, err := true, errCode := 5#4, symbuf := m
        errInfo0 := BitVec.ofNat 32 k, errInfo1 := BitVec.ofNat 32 k } ∧
      m.length = s.symbuf.length ∧
      (∀ j < k, m.read j = y) ∧ (∀ j, k ≤ j → j < m.length → m.read j = s.symbuf.read j)

/-- R210, R213: when one more code completes with SYMBUF full, DECODE fails with SymBufOverflow at the bit that
completes it; SYMBUF holds the symbols before it. -/
def Obligations.DecodeReportsFullBuffer : Prop :=
  ∀ (s : State) (l : Nat) (syms : List Byte) (codes : List BitString) (y : Byte) (p : BitString),
    s.memoryWf = true → s.nodeCount ≠ 0#10 → AreCodes s.node s.root syms codes →
    IsCode s.node s.root y p → StreamIs s.bitbuf (codes.flatten ++ p) → syms.length = s.cfg.symbufDepth →
    (codes.flatten ++ p).length ≤ l → l ≤ s.cfg.bitcap →
    ∃ m : Memory Byte,
      exec (.decode l) s = .next { s with
        busy := false, err := true, errCode := 12#4, symbuf := m
        errInfo0 := BitVec.ofNat 32 s.cfg.symbufDepth
        errInfo1 := BitVec.ofNat 32 ((codes.flatten ++ p).length - 1) } ∧
      m.length = s.symbuf.length ∧ (∀ j < syms.length, m.read j = syms.getD j 0#8)

/-- R211: DECODE reads the tree and never the code table (nor FREQ): replacing them changes nothing of what it
does. -/
def Obligations.DecodeReadsNoCodeTable : Prop :=
  ∀ (s t : State) (l : Nat) (freq : Memory Word) (code : Memory CodeEntry) (valid : Bool),
    exec (.decode l) s = .next t →
    exec (.decode l) { s with freq := freq, code := code, codesValid := valid } =
      .next { t with freq := freq, code := code, codesValid := valid }

/-- R216: decoding what ENCODE wrote gives the symbols back: after a successful ENCODE n over the current tree's
codes, in every later state with the same configuration, tree and BITBUF, DECODE of its ENC_BITLEN bits succeeds with
DEC_SYMCOUNT = n and SYMBUF entries 0 to n - 1 equal to the encoded symbols.  What SYMBUF held in between does not
matter, so R216's premise about its entries 0 to n - 1 is not needed; entries from n on, and all else, are unchanged. -/
def Obligations.DecodeInvertsEncode : Prop :=
  ∀ (s t u : State) (n : Nat), Inv s → s.codesValid = true → s.done = false →
    exec (.encode n) s = .next t → t.done = true →
    u.memoryWf = true → u.cfg = t.cfg → u.node = t.node → u.nodeCount = t.nodeCount → u.root = t.root →
    u.bitbuf = t.bitbuf →
    t.symbuf = s.symbuf ∧
    ∃ m : Memory Byte,
      exec (.decode t.encBitLen.toNat) u = .next { u with
        busy := false, done := true, symbuf := m, decSymCount := BitVec.ofNat 32 n } ∧
      m.length = u.symbuf.length ∧
      (∀ j < n, m.read j = s.symbuf.read j) ∧
      (∀ j, n ≤ j → j < m.length → m.read j = u.symbuf.read j)

/-! ## Reset (70_reset_and_hazards.md) -/

/-- R263, R264: a write to CTRL with bit 0 set takes every register to its reset value, busy or not; a memory that
no pending command writes is unchanged; a write with bit 0 clear does nothing (R26). -/
def Obligations.SoftResetClearsRegisters : Prop :=
  ∀ (s : State) (v : Word) (rest : List Event),
    (v.getLsbD 0 = true →
      ∃ (p : Word) (d : Nat) (m : State),
        step (s.withInputs (writeEvent 0x0008#16 v :: rest)) = .next { s with
          inputs := rest, resp := some ⟨0#32, false⟩
          busy := false, done := false, err := false, ovr := false, codesValid := false
          doneIe := false, errIe := false, ovrIe := false
          errCode := 0#4, errInfo0 := 0#32, errInfo1 := 0#32, nodeCount := 0#10, root := 0#9
          encBitLen := 0#32, decSymCount := 0#32, pending := p, draws := d
          freq := m.freq, node := m.node, code := m.code, symbuf := m.symbuf, bitbuf := m.bitbuf } ∧
        (¬(s.busy = true ∧ decodeWord s.pending = .ok .clrfreq) → m.freq = s.freq) ∧
        (¬(s.busy = true ∧ decodeWord s.pending = .ok .build) → m.node = s.node) ∧
        (¬(s.busy = true ∧ decodeWord s.pending = .ok .gencodes) → m.code = s.code) ∧
        (¬(s.busy = true ∧ ∃ n, decodeWord s.pending = .ok (.encode n)) → m.bitbuf = s.bitbuf) ∧
        (¬(s.busy = true ∧ ∃ l, decodeWord s.pending = .ok (.decode l)) → m.symbuf = s.symbuf)) ∧
    (v.getLsbD 0 = false →
      step (s.withInputs (writeEvent 0x0008#16 v :: rest)) =
        .next { s with inputs := rest, resp := some ⟨0#32, false⟩ })

/-- R261 (with R260, R263): after a hardware or a soft reset, from every state, the registers read their reset values,
irq is 0, and the NODE and CODE regions read 0. -/
def Obligations.ResetReadsResetValues : Prop :=
  ∀ (s : State) (ev : Event) (rest : List Event),
    ((∃ f, ev = .hardwareReset f) ∨ (∃ v, ev = writeEvent 0x0008#16 v ∧ v.getLsbD 0 = true)) →
    ∃ t, step (s.withInputs (ev :: rest)) = .next t ∧ t.cfg = s.cfg ∧ t.inputs = rest ∧ irq t = false ∧
      (∀ r : Csr, readCsr r t =
        match r with
        | .id => 0x48554646#32
        | .config => readCsr .config s
        | _ => 0#32) ∧
      (∀ i w, readNode i w t = 0#32) ∧ (∀ y w, readCode y w t = 0#32)

/-! ## The whole machine -/

/-- The invariant of Safety.lean holds at reset (R20, R261). -/
def Obligations.InvariantHoldsAtReset : Prop := Inv State.reset

/-- Every step keeps the invariant: memory shapes, status and error record (R28, R30, R31), start effects (R121),
the tree (R44), the code table (R36) and the result bounds (R39, R40). -/
def Obligations.StepKeepsInvariant : Prop := ∀ s t : State, Inv s → step s = .next t → Inv t

/-- Every step keeps the shape of the memories and the configuration, from every state that has it. -/
def Obligations.StepKeepsMemoryShape : Prop :=
  ∀ s t : State, s.memoryWf = true → step s = .next t → t.memoryWf = true ∧ t.cfg = s.cfg

/-- Every step keeps the status bits and the error record consistent (R28, R30, R31, R120, R123, R230). -/
def Obligations.StepKeepsStatusConsistent : Prop :=
  ∀ s t : State, StatusOk s → step s = .next t → StatusOk t

/-- R32, R34: only BUILD (its acceptance and its completion) and reset change NODE_COUNT and ROOT, and only BUILD
and reset change NODE memory. -/
def Obligations.OnlyBuildAndResetChangeTree : Prop :=
  ∀ s t : State, step s = .next t →
    (t.nodeCount ≠ s.nodeCount ∨ t.root ≠ s.root ∨ t.node ≠ s.node) →
    (∃ rest, s.inputs = writeEvent 0x000C#16 0x00000002#32 :: rest ∧ s.busy = false) ∨
    (s.busy = true ∧ s.pending = 0x00000002#32 ∧ (s.inputs = [] ∨ ∃ rest, s.inputs = .engine :: rest)) ∨
    (∃ v rest, s.inputs = writeEvent 0x0008#16 v :: rest ∧ v.getLsbD 0 = true) ∨
    (∃ f rest, s.inputs = .hardwareReset f :: rest)

/-- R36: CODES_VALID rises only in a completion of GENCODES, and falls only in an acceptance of BUILD or GENCODES or
in a reset; the code memory changes only in a completion of GENCODES or in a reset (R35). -/
def Obligations.OnlyGencodesAndResetChangeCodes : Prop :=
  ∀ s t : State, step s = .next t →
    ((t.codesValid = true ∧ s.codesValid = false →
      s.busy = true ∧ s.pending = 0x00000003#32 ∧ (s.inputs = [] ∨ ∃ rest, s.inputs = .engine :: rest)) ∧
    (t.codesValid = false ∧ s.codesValid = true →
      (∃ w rest, s.inputs = writeEvent 0x000C#16 w :: rest ∧ s.busy = false ∧
        (w = 0x00000002#32 ∨ w = 0x00000003#32)) ∨
      (∃ v rest, s.inputs = writeEvent 0x0008#16 v :: rest ∧ v.getLsbD 0 = true) ∨
      (∃ f rest, s.inputs = .hardwareReset f :: rest)) ∧
    (t.code ≠ s.code →
      (s.busy = true ∧ s.pending = 0x00000003#32 ∧ (s.inputs = [] ∨ ∃ rest, s.inputs = .engine :: rest)) ∨
      (∃ v rest, s.inputs = writeEvent 0x0008#16 v :: rest ∧ v.getLsbD 0 = true) ∨
      (∃ f rest, s.inputs = .hardwareReset f :: rest)))

/-- R33: FREQ changes only by a host write to its region while idle, by CLRFREQ, or by a reset. -/
def Obligations.OnlyHostClrfreqAndResetChangeFreq : Prop :=
  ∀ s t : State, step s = .next t → t.freq ≠ s.freq →
    (∃ off v rest, s.inputs = writeEvent off v :: rest ∧ s.busy = false ∧
      0x0400 ≤ off.toNat ∧ off.toNat ≤ 0x07FF) ∨
    (s.busy = true ∧ s.pending = 0x00000001#32 ∧ (s.inputs = [] ∨ ∃ rest, s.inputs = .engine :: rest)) ∨
    (∃ v rest, s.inputs = writeEvent 0x0008#16 v :: rest ∧ v.getLsbD 0 = true) ∨
    (∃ f rest, s.inputs = .hardwareReset f :: rest)
end

