-- ==== Sys2Proof/Laws/Memory.lean ====
section
/-! SUPPORT. Reading and writing memories: read after write, untouched entries, and that every operation keeps
the number of entries, which is a memory's one canonical form. -/

namespace Sys2Proof.Machine

section
variable {α : Type}

@[simp] theorem Memory.wf_iff {n : Nat} {m : Memory α} : Memory.wf n m = true ↔ m.length = n := by
  simp [Memory.wf]

@[simp] theorem Memory.length_write (m : Memory α) (i : Nat) (v : α) : (m.write i v).length = m.length := by
  simp [Memory.write]

/-- A write keeps the canonical form. -/
theorem Memory.wf_write {n : Nat} {m : Memory α} (i : Nat) (v : α) (h : Memory.wf n m = true) :
    Memory.wf n (m.write i v) = true := by simpa using h

end

section
variable {α : Type} [Inhabited α]

theorem Memory.read_write_same {m : Memory α} {i : Nat} (v : α) (h : i < m.length) :
    (m.write i v).read i = v := by simp [Memory.read, Memory.write, h]

theorem Memory.read_write_other (m : Memory α) {i j : Nat} (v : α) (h : i ≠ j) :
    (m.write i v).read j = m.read j := by simp [Memory.read, Memory.write, h]

/-- Reading any entry after a write, at once. -/
theorem Memory.read_write {m : Memory α} {i : Nat} (v : α) (h : i < m.length) (j : Nat) :
    (m.write i v).read j = if i = j then v else m.read j := by
  split
  · next hij => exact hij ▸ Memory.read_write_same v h
  · next hij => exact Memory.read_write_other m v hij

/-- Two memories of one size that read the same everywhere are the same data. -/
theorem Memory.ext_read {m m' : Memory α} (hl : m.length = m'.length)
    (h : ∀ i < m.length, m.read i = m'.read i) : m = m' := by
  apply List.ext_getElem hl
  intro i h₁ h₂
  have := h i h₁
  simpa [Memory.read, List.getD_eq_getElem, h₁, h₂] using this

/-- Writing back what an entry holds changes nothing. -/
theorem Memory.write_read_self (m : Memory α) (i : Nat) : m.write i (m.read i) = m := by
  apply Memory.ext_read (by simp)
  intro j hj
  by_cases hij : i = j
  · subst hij
    exact Memory.read_write_same _ (by simpa using hj)
  · exact Memory.read_write_other _ _ hij

end

section
variable {α : Type}

@[simp] theorem Memory.length_tabulate (f : Nat → α) (n : Nat) : (Memory.tabulate f n).length = n := by
  induction n generalizing f with
  | zero => rfl
  | succ n ih => simp [Memory.tabulate, ih]

theorem Memory.read_tabulate [Inhabited α] (f : Nat → α) {n i : Nat} (h : i < n) :
    (Memory.tabulate f n).read i = f i := by
  induction n generalizing f i with
  | zero => omega
  | succ n ih =>
    cases i with
    | zero => simp [Memory.tabulate, Memory.read]
    | succ i =>
      have := ih (fun j => f (j + 1)) (i := i) (by omega)
      simpa [Memory.tabulate, Memory.read] using this

end

@[simp] theorem length_pack (st : BitString) (m : Nat) (buf : Memory Word) :
    (pack st m buf).length = buf.length := by
  induction m with
  | zero => rfl
  | succ m ih => simp [pack, ih]

/-- `pack` writes its first words and no other (R191). -/
theorem read_pack (st : BitString) {m : Nat} {buf : Memory Word} (h : m ≤ buf.length) (i : Nat) :
    (pack st m buf).read i = if i < m then packWord st i else buf.read i := by
  induction m with
  | zero => simp [pack]
  | succ m ih =>
    rw [pack, Memory.read_write _ (by simp; omega), ih (by omega)]
    split
    · next h => subst h; simp
    · next h =>
      split
      · rw [if_pos (by omega)]
      · rw [if_neg (by omega)]

end Sys2Proof.Machine
end

