-- ==== Sys2Proof/Laws/Bits.lean ====
section
/-! SUPPORT. The bits of packed words and of the stream (spec 20_memory.md R76; 43_encoder.md R191). -/

namespace Sys2Proof.Machine

/-- Bit `b` from the top of an `n`-bit value packed most significant first is `f b`. -/
theorem getMsbD_msbFirst (f : Nat → Bool) (n b : Nat) :
    (msbFirst f n).getMsbD b = (decide (b < n) && f b) := by
  induction n with
  | zero => simp [msbFirst]
  | succ n ih =>
    rw [msbFirst, BitVec.getMsbD_concat, ih]
    by_cases h : b < n
    · simp [h, Nat.lt_succ_of_lt h]
    · by_cases h' : b = n
      · simp [h']
      · simp [h, h', show ¬b < n + 1 by omega]

/-- Bit `31 - b` of a packed word is bit `32 * w + b` of the bit-string, 0 beyond its end (R191). -/
theorem getLsbD_packWord (st : BitString) (w : Nat) {b : Nat} (h : b < 32) :
    (packWord st w).getLsbD (31 - b) = st.getD (32 * w + b) false := by
  have := getMsbD_msbFirst (fun b => st.getD (32 * w + b) false) 32 b
  rw [BitVec.getMsbD] at this
  simpa [packWord, h] using this

/-- A stream bit of a packed buffer is the bit-string's bit, and 0 in the padding (R191). -/
theorem streambit_pack (st : BitString) {m : Nat} {buf : Memory Word} (hm : m ≤ buf.length) {k : Nat}
    (hk : k < 32 * m) : streambit (pack st m buf) k = st.getD k false := by
  rw [streambit, read_pack st hm, if_pos (by omega), getLsbD_packWord _ _ (Nat.mod_lt _ (by omega)),
    Nat.div_add_mod]

/-- A stream bit beyond the packed words is unchanged. -/
theorem streambit_pack_beyond (st : BitString) {m : Nat} {buf : Memory Word} (hm : m ≤ buf.length) {k : Nat}
    (hk : 32 * m ≤ k) : streambit (pack st m buf) k = streambit buf k := by
  rw [streambit, read_pack st hm, if_neg (by omega), streambit]

end Sys2Proof.Machine
end

