-- ==== Sys2Proof/Laws/Decode.lean ====
section
/-! SUPPORT. The fields of an assembled command word, the one fact about encodings that proofs need. -/

namespace Sys2Proof

@[simp] theorem opField_commandWord (arg : Nat) (op : BitVec 8) : opField (commandWord arg op) = op := by
  apply BitVec.eq_of_getLsbD_eq
  intro i hi
  simp only [opField, commandWord, BitVec.getLsbD_extractLsb', BitVec.getLsbD_or, BitVec.getLsbD_shiftLeft,
    BitVec.getLsbD_setWidth]
  simp [hi, show i < 32 by omega]

@[simp] theorem argField_commandWord (arg : Nat) (op : BitVec 8) :
    argField (commandWord arg op) = BitVec.ofNat 24 arg := by
  apply BitVec.eq_of_getLsbD_eq
  intro i hi
  simp only [argField, commandWord, BitVec.getLsbD_extractLsb', BitVec.getLsbD_or, BitVec.getLsbD_shiftLeft,
    BitVec.getLsbD_setWidth]
  simp [hi, show 8 + i < 32 by omega, show i < 32 by omega]

/-- A word is made of its two fields (R101). -/
theorem commandWord_fields (w : Word) : commandWord (argField w).toNat (opField w) = w := by
  apply BitVec.eq_of_getLsbD_eq
  intro i hi
  simp only [commandWord, opField, argField, BitVec.ofNat_toNat, BitVec.getLsbD_or, BitVec.getLsbD_shiftLeft,
    BitVec.getLsbD_setWidth, BitVec.getLsbD_extractLsb']
  by_cases h : i < 8
  · simp [h, hi]
  · simp [h, hi, show i - 8 < 24 by omega, show i - 8 < 32 by omega, show 8 + (i - 8) = i by omega]

end Sys2Proof
end

