-- ==== Sys2Proof/Laws/State.lean ====
section
/-! SUPPORT. One lemma for each field of State under each update of Machine/Ops.lean, true by rfl. -/

namespace Sys2Proof.Machine

variable (s : State)

/-! ## withInputs -/

@[simp] theorem State.withInputs_cfg (evs : List Event) : (s.withInputs evs).cfg = s.cfg := rfl
@[simp] theorem State.withInputs_busy (evs : List Event) : (s.withInputs evs).busy = s.busy := rfl
@[simp] theorem State.withInputs_done (evs : List Event) : (s.withInputs evs).done = s.done := rfl
@[simp] theorem State.withInputs_err (evs : List Event) : (s.withInputs evs).err = s.err := rfl
@[simp] theorem State.withInputs_ovr (evs : List Event) : (s.withInputs evs).ovr = s.ovr := rfl
@[simp] theorem State.withInputs_codesValid (evs : List Event) : (s.withInputs evs).codesValid = s.codesValid := rfl
@[simp] theorem State.withInputs_doneIe (evs : List Event) : (s.withInputs evs).doneIe = s.doneIe := rfl
@[simp] theorem State.withInputs_errIe (evs : List Event) : (s.withInputs evs).errIe = s.errIe := rfl
@[simp] theorem State.withInputs_ovrIe (evs : List Event) : (s.withInputs evs).ovrIe = s.ovrIe := rfl
@[simp] theorem State.withInputs_errCode (evs : List Event) : (s.withInputs evs).errCode = s.errCode := rfl
@[simp] theorem State.withInputs_errInfo0 (evs : List Event) : (s.withInputs evs).errInfo0 = s.errInfo0 := rfl
@[simp] theorem State.withInputs_errInfo1 (evs : List Event) : (s.withInputs evs).errInfo1 = s.errInfo1 := rfl
@[simp] theorem State.withInputs_nodeCount (evs : List Event) : (s.withInputs evs).nodeCount = s.nodeCount := rfl
@[simp] theorem State.withInputs_root (evs : List Event) : (s.withInputs evs).root = s.root := rfl
@[simp] theorem State.withInputs_encBitLen (evs : List Event) : (s.withInputs evs).encBitLen = s.encBitLen := rfl
@[simp] theorem State.withInputs_decSymCount (evs : List Event) : (s.withInputs evs).decSymCount = s.decSymCount := rfl
@[simp] theorem State.withInputs_pending (evs : List Event) : (s.withInputs evs).pending = s.pending := rfl
@[simp] theorem State.withInputs_freq (evs : List Event) : (s.withInputs evs).freq = s.freq := rfl
@[simp] theorem State.withInputs_node (evs : List Event) : (s.withInputs evs).node = s.node := rfl
@[simp] theorem State.withInputs_code (evs : List Event) : (s.withInputs evs).code = s.code := rfl
@[simp] theorem State.withInputs_symbuf (evs : List Event) : (s.withInputs evs).symbuf = s.symbuf := rfl
@[simp] theorem State.withInputs_bitbuf (evs : List Event) : (s.withInputs evs).bitbuf = s.bitbuf := rfl
@[simp] theorem State.withInputs_draws (evs : List Event) : (s.withInputs evs).draws = s.draws := rfl
@[simp] theorem State.withInputs_inputs (evs : List Event) : (s.withInputs evs).inputs = evs := rfl
@[simp] theorem State.withInputs_resp (evs : List Event) : (s.withInputs evs).resp = s.resp := rfl

/-! ## withResponse -/

@[simp] theorem State.withResponse_cfg (d : Word) (b : Bool) : (s.withResponse d b).cfg = s.cfg := rfl
@[simp] theorem State.withResponse_busy (d : Word) (b : Bool) : (s.withResponse d b).busy = s.busy := rfl
@[simp] theorem State.withResponse_done (d : Word) (b : Bool) : (s.withResponse d b).done = s.done := rfl
@[simp] theorem State.withResponse_err (d : Word) (b : Bool) : (s.withResponse d b).err = s.err := rfl
@[simp] theorem State.withResponse_ovr (d : Word) (b : Bool) : (s.withResponse d b).ovr = s.ovr := rfl
@[simp] theorem State.withResponse_codesValid (d : Word) (b : Bool) : (s.withResponse d b).codesValid = s.codesValid := rfl
@[simp] theorem State.withResponse_doneIe (d : Word) (b : Bool) : (s.withResponse d b).doneIe = s.doneIe := rfl
@[simp] theorem State.withResponse_errIe (d : Word) (b : Bool) : (s.withResponse d b).errIe = s.errIe := rfl
@[simp] theorem State.withResponse_ovrIe (d : Word) (b : Bool) : (s.withResponse d b).ovrIe = s.ovrIe := rfl
@[simp] theorem State.withResponse_errCode (d : Word) (b : Bool) : (s.withResponse d b).errCode = s.errCode := rfl
@[simp] theorem State.withResponse_errInfo0 (d : Word) (b : Bool) : (s.withResponse d b).errInfo0 = s.errInfo0 := rfl
@[simp] theorem State.withResponse_errInfo1 (d : Word) (b : Bool) : (s.withResponse d b).errInfo1 = s.errInfo1 := rfl
@[simp] theorem State.withResponse_nodeCount (d : Word) (b : Bool) : (s.withResponse d b).nodeCount = s.nodeCount := rfl
@[simp] theorem State.withResponse_root (d : Word) (b : Bool) : (s.withResponse d b).root = s.root := rfl
@[simp] theorem State.withResponse_encBitLen (d : Word) (b : Bool) : (s.withResponse d b).encBitLen = s.encBitLen := rfl
@[simp] theorem State.withResponse_decSymCount (d : Word) (b : Bool) : (s.withResponse d b).decSymCount = s.decSymCount := rfl
@[simp] theorem State.withResponse_pending (d : Word) (b : Bool) : (s.withResponse d b).pending = s.pending := rfl
@[simp] theorem State.withResponse_freq (d : Word) (b : Bool) : (s.withResponse d b).freq = s.freq := rfl
@[simp] theorem State.withResponse_node (d : Word) (b : Bool) : (s.withResponse d b).node = s.node := rfl
@[simp] theorem State.withResponse_code (d : Word) (b : Bool) : (s.withResponse d b).code = s.code := rfl
@[simp] theorem State.withResponse_symbuf (d : Word) (b : Bool) : (s.withResponse d b).symbuf = s.symbuf := rfl
@[simp] theorem State.withResponse_bitbuf (d : Word) (b : Bool) : (s.withResponse d b).bitbuf = s.bitbuf := rfl
@[simp] theorem State.withResponse_draws (d : Word) (b : Bool) : (s.withResponse d b).draws = s.draws := rfl
@[simp] theorem State.withResponse_inputs (d : Word) (b : Bool) : (s.withResponse d b).inputs = s.inputs := rfl
@[simp] theorem State.withResponse_resp (d : Word) (b : Bool) : (s.withResponse d b).resp = some ⟨d, b⟩ := rfl

/-! ## withFreq -/

@[simp] theorem State.withFreq_cfg (m : Memory Word) : (s.withFreq m).cfg = s.cfg := rfl
@[simp] theorem State.withFreq_busy (m : Memory Word) : (s.withFreq m).busy = s.busy := rfl
@[simp] theorem State.withFreq_done (m : Memory Word) : (s.withFreq m).done = s.done := rfl
@[simp] theorem State.withFreq_err (m : Memory Word) : (s.withFreq m).err = s.err := rfl
@[simp] theorem State.withFreq_ovr (m : Memory Word) : (s.withFreq m).ovr = s.ovr := rfl
@[simp] theorem State.withFreq_codesValid (m : Memory Word) : (s.withFreq m).codesValid = s.codesValid := rfl
@[simp] theorem State.withFreq_doneIe (m : Memory Word) : (s.withFreq m).doneIe = s.doneIe := rfl
@[simp] theorem State.withFreq_errIe (m : Memory Word) : (s.withFreq m).errIe = s.errIe := rfl
@[simp] theorem State.withFreq_ovrIe (m : Memory Word) : (s.withFreq m).ovrIe = s.ovrIe := rfl
@[simp] theorem State.withFreq_errCode (m : Memory Word) : (s.withFreq m).errCode = s.errCode := rfl
@[simp] theorem State.withFreq_errInfo0 (m : Memory Word) : (s.withFreq m).errInfo0 = s.errInfo0 := rfl
@[simp] theorem State.withFreq_errInfo1 (m : Memory Word) : (s.withFreq m).errInfo1 = s.errInfo1 := rfl
@[simp] theorem State.withFreq_nodeCount (m : Memory Word) : (s.withFreq m).nodeCount = s.nodeCount := rfl
@[simp] theorem State.withFreq_root (m : Memory Word) : (s.withFreq m).root = s.root := rfl
@[simp] theorem State.withFreq_encBitLen (m : Memory Word) : (s.withFreq m).encBitLen = s.encBitLen := rfl
@[simp] theorem State.withFreq_decSymCount (m : Memory Word) : (s.withFreq m).decSymCount = s.decSymCount := rfl
@[simp] theorem State.withFreq_pending (m : Memory Word) : (s.withFreq m).pending = s.pending := rfl
@[simp] theorem State.withFreq_freq (m : Memory Word) : (s.withFreq m).freq = m := rfl
@[simp] theorem State.withFreq_node (m : Memory Word) : (s.withFreq m).node = s.node := rfl
@[simp] theorem State.withFreq_code (m : Memory Word) : (s.withFreq m).code = s.code := rfl
@[simp] theorem State.withFreq_symbuf (m : Memory Word) : (s.withFreq m).symbuf = s.symbuf := rfl
@[simp] theorem State.withFreq_bitbuf (m : Memory Word) : (s.withFreq m).bitbuf = s.bitbuf := rfl
@[simp] theorem State.withFreq_draws (m : Memory Word) : (s.withFreq m).draws = s.draws := rfl
@[simp] theorem State.withFreq_inputs (m : Memory Word) : (s.withFreq m).inputs = s.inputs := rfl
@[simp] theorem State.withFreq_resp (m : Memory Word) : (s.withFreq m).resp = s.resp := rfl

/-! ## withNode -/

@[simp] theorem State.withNode_cfg (m : Memory Node) : (s.withNode m).cfg = s.cfg := rfl
@[simp] theorem State.withNode_busy (m : Memory Node) : (s.withNode m).busy = s.busy := rfl
@[simp] theorem State.withNode_done (m : Memory Node) : (s.withNode m).done = s.done := rfl
@[simp] theorem State.withNode_err (m : Memory Node) : (s.withNode m).err = s.err := rfl
@[simp] theorem State.withNode_ovr (m : Memory Node) : (s.withNode m).ovr = s.ovr := rfl
@[simp] theorem State.withNode_codesValid (m : Memory Node) : (s.withNode m).codesValid = s.codesValid := rfl
@[simp] theorem State.withNode_doneIe (m : Memory Node) : (s.withNode m).doneIe = s.doneIe := rfl
@[simp] theorem State.withNode_errIe (m : Memory Node) : (s.withNode m).errIe = s.errIe := rfl
@[simp] theorem State.withNode_ovrIe (m : Memory Node) : (s.withNode m).ovrIe = s.ovrIe := rfl
@[simp] theorem State.withNode_errCode (m : Memory Node) : (s.withNode m).errCode = s.errCode := rfl
@[simp] theorem State.withNode_errInfo0 (m : Memory Node) : (s.withNode m).errInfo0 = s.errInfo0 := rfl
@[simp] theorem State.withNode_errInfo1 (m : Memory Node) : (s.withNode m).errInfo1 = s.errInfo1 := rfl
@[simp] theorem State.withNode_nodeCount (m : Memory Node) : (s.withNode m).nodeCount = s.nodeCount := rfl
@[simp] theorem State.withNode_root (m : Memory Node) : (s.withNode m).root = s.root := rfl
@[simp] theorem State.withNode_encBitLen (m : Memory Node) : (s.withNode m).encBitLen = s.encBitLen := rfl
@[simp] theorem State.withNode_decSymCount (m : Memory Node) : (s.withNode m).decSymCount = s.decSymCount := rfl
@[simp] theorem State.withNode_pending (m : Memory Node) : (s.withNode m).pending = s.pending := rfl
@[simp] theorem State.withNode_freq (m : Memory Node) : (s.withNode m).freq = s.freq := rfl
@[simp] theorem State.withNode_node (m : Memory Node) : (s.withNode m).node = m := rfl
@[simp] theorem State.withNode_code (m : Memory Node) : (s.withNode m).code = s.code := rfl
@[simp] theorem State.withNode_symbuf (m : Memory Node) : (s.withNode m).symbuf = s.symbuf := rfl
@[simp] theorem State.withNode_bitbuf (m : Memory Node) : (s.withNode m).bitbuf = s.bitbuf := rfl
@[simp] theorem State.withNode_draws (m : Memory Node) : (s.withNode m).draws = s.draws := rfl
@[simp] theorem State.withNode_inputs (m : Memory Node) : (s.withNode m).inputs = s.inputs := rfl
@[simp] theorem State.withNode_resp (m : Memory Node) : (s.withNode m).resp = s.resp := rfl

/-! ## withCode -/

@[simp] theorem State.withCode_cfg (m : Memory CodeEntry) : (s.withCode m).cfg = s.cfg := rfl
@[simp] theorem State.withCode_busy (m : Memory CodeEntry) : (s.withCode m).busy = s.busy := rfl
@[simp] theorem State.withCode_done (m : Memory CodeEntry) : (s.withCode m).done = s.done := rfl
@[simp] theorem State.withCode_err (m : Memory CodeEntry) : (s.withCode m).err = s.err := rfl
@[simp] theorem State.withCode_ovr (m : Memory CodeEntry) : (s.withCode m).ovr = s.ovr := rfl
@[simp] theorem State.withCode_codesValid (m : Memory CodeEntry) : (s.withCode m).codesValid = s.codesValid := rfl
@[simp] theorem State.withCode_doneIe (m : Memory CodeEntry) : (s.withCode m).doneIe = s.doneIe := rfl
@[simp] theorem State.withCode_errIe (m : Memory CodeEntry) : (s.withCode m).errIe = s.errIe := rfl
@[simp] theorem State.withCode_ovrIe (m : Memory CodeEntry) : (s.withCode m).ovrIe = s.ovrIe := rfl
@[simp] theorem State.withCode_errCode (m : Memory CodeEntry) : (s.withCode m).errCode = s.errCode := rfl
@[simp] theorem State.withCode_errInfo0 (m : Memory CodeEntry) : (s.withCode m).errInfo0 = s.errInfo0 := rfl
@[simp] theorem State.withCode_errInfo1 (m : Memory CodeEntry) : (s.withCode m).errInfo1 = s.errInfo1 := rfl
@[simp] theorem State.withCode_nodeCount (m : Memory CodeEntry) : (s.withCode m).nodeCount = s.nodeCount := rfl
@[simp] theorem State.withCode_root (m : Memory CodeEntry) : (s.withCode m).root = s.root := rfl
@[simp] theorem State.withCode_encBitLen (m : Memory CodeEntry) : (s.withCode m).encBitLen = s.encBitLen := rfl
@[simp] theorem State.withCode_decSymCount (m : Memory CodeEntry) : (s.withCode m).decSymCount = s.decSymCount := rfl
@[simp] theorem State.withCode_pending (m : Memory CodeEntry) : (s.withCode m).pending = s.pending := rfl
@[simp] theorem State.withCode_freq (m : Memory CodeEntry) : (s.withCode m).freq = s.freq := rfl
@[simp] theorem State.withCode_node (m : Memory CodeEntry) : (s.withCode m).node = s.node := rfl
@[simp] theorem State.withCode_code (m : Memory CodeEntry) : (s.withCode m).code = m := rfl
@[simp] theorem State.withCode_symbuf (m : Memory CodeEntry) : (s.withCode m).symbuf = s.symbuf := rfl
@[simp] theorem State.withCode_bitbuf (m : Memory CodeEntry) : (s.withCode m).bitbuf = s.bitbuf := rfl
@[simp] theorem State.withCode_draws (m : Memory CodeEntry) : (s.withCode m).draws = s.draws := rfl
@[simp] theorem State.withCode_inputs (m : Memory CodeEntry) : (s.withCode m).inputs = s.inputs := rfl
@[simp] theorem State.withCode_resp (m : Memory CodeEntry) : (s.withCode m).resp = s.resp := rfl

/-! ## withSymbuf -/

@[simp] theorem State.withSymbuf_cfg (m : Memory Byte) : (s.withSymbuf m).cfg = s.cfg := rfl
@[simp] theorem State.withSymbuf_busy (m : Memory Byte) : (s.withSymbuf m).busy = s.busy := rfl
@[simp] theorem State.withSymbuf_done (m : Memory Byte) : (s.withSymbuf m).done = s.done := rfl
@[simp] theorem State.withSymbuf_err (m : Memory Byte) : (s.withSymbuf m).err = s.err := rfl
@[simp] theorem State.withSymbuf_ovr (m : Memory Byte) : (s.withSymbuf m).ovr = s.ovr := rfl
@[simp] theorem State.withSymbuf_codesValid (m : Memory Byte) : (s.withSymbuf m).codesValid = s.codesValid := rfl
@[simp] theorem State.withSymbuf_doneIe (m : Memory Byte) : (s.withSymbuf m).doneIe = s.doneIe := rfl
@[simp] theorem State.withSymbuf_errIe (m : Memory Byte) : (s.withSymbuf m).errIe = s.errIe := rfl
@[simp] theorem State.withSymbuf_ovrIe (m : Memory Byte) : (s.withSymbuf m).ovrIe = s.ovrIe := rfl
@[simp] theorem State.withSymbuf_errCode (m : Memory Byte) : (s.withSymbuf m).errCode = s.errCode := rfl
@[simp] theorem State.withSymbuf_errInfo0 (m : Memory Byte) : (s.withSymbuf m).errInfo0 = s.errInfo0 := rfl
@[simp] theorem State.withSymbuf_errInfo1 (m : Memory Byte) : (s.withSymbuf m).errInfo1 = s.errInfo1 := rfl
@[simp] theorem State.withSymbuf_nodeCount (m : Memory Byte) : (s.withSymbuf m).nodeCount = s.nodeCount := rfl
@[simp] theorem State.withSymbuf_root (m : Memory Byte) : (s.withSymbuf m).root = s.root := rfl
@[simp] theorem State.withSymbuf_encBitLen (m : Memory Byte) : (s.withSymbuf m).encBitLen = s.encBitLen := rfl
@[simp] theorem State.withSymbuf_decSymCount (m : Memory Byte) : (s.withSymbuf m).decSymCount = s.decSymCount := rfl
@[simp] theorem State.withSymbuf_pending (m : Memory Byte) : (s.withSymbuf m).pending = s.pending := rfl
@[simp] theorem State.withSymbuf_freq (m : Memory Byte) : (s.withSymbuf m).freq = s.freq := rfl
@[simp] theorem State.withSymbuf_node (m : Memory Byte) : (s.withSymbuf m).node = s.node := rfl
@[simp] theorem State.withSymbuf_code (m : Memory Byte) : (s.withSymbuf m).code = s.code := rfl
@[simp] theorem State.withSymbuf_symbuf (m : Memory Byte) : (s.withSymbuf m).symbuf = m := rfl
@[simp] theorem State.withSymbuf_bitbuf (m : Memory Byte) : (s.withSymbuf m).bitbuf = s.bitbuf := rfl
@[simp] theorem State.withSymbuf_draws (m : Memory Byte) : (s.withSymbuf m).draws = s.draws := rfl
@[simp] theorem State.withSymbuf_inputs (m : Memory Byte) : (s.withSymbuf m).inputs = s.inputs := rfl
@[simp] theorem State.withSymbuf_resp (m : Memory Byte) : (s.withSymbuf m).resp = s.resp := rfl

/-! ## withBitbuf -/

@[simp] theorem State.withBitbuf_cfg (m : Memory Word) : (s.withBitbuf m).cfg = s.cfg := rfl
@[simp] theorem State.withBitbuf_busy (m : Memory Word) : (s.withBitbuf m).busy = s.busy := rfl
@[simp] theorem State.withBitbuf_done (m : Memory Word) : (s.withBitbuf m).done = s.done := rfl
@[simp] theorem State.withBitbuf_err (m : Memory Word) : (s.withBitbuf m).err = s.err := rfl
@[simp] theorem State.withBitbuf_ovr (m : Memory Word) : (s.withBitbuf m).ovr = s.ovr := rfl
@[simp] theorem State.withBitbuf_codesValid (m : Memory Word) : (s.withBitbuf m).codesValid = s.codesValid := rfl
@[simp] theorem State.withBitbuf_doneIe (m : Memory Word) : (s.withBitbuf m).doneIe = s.doneIe := rfl
@[simp] theorem State.withBitbuf_errIe (m : Memory Word) : (s.withBitbuf m).errIe = s.errIe := rfl
@[simp] theorem State.withBitbuf_ovrIe (m : Memory Word) : (s.withBitbuf m).ovrIe = s.ovrIe := rfl
@[simp] theorem State.withBitbuf_errCode (m : Memory Word) : (s.withBitbuf m).errCode = s.errCode := rfl
@[simp] theorem State.withBitbuf_errInfo0 (m : Memory Word) : (s.withBitbuf m).errInfo0 = s.errInfo0 := rfl
@[simp] theorem State.withBitbuf_errInfo1 (m : Memory Word) : (s.withBitbuf m).errInfo1 = s.errInfo1 := rfl
@[simp] theorem State.withBitbuf_nodeCount (m : Memory Word) : (s.withBitbuf m).nodeCount = s.nodeCount := rfl
@[simp] theorem State.withBitbuf_root (m : Memory Word) : (s.withBitbuf m).root = s.root := rfl
@[simp] theorem State.withBitbuf_encBitLen (m : Memory Word) : (s.withBitbuf m).encBitLen = s.encBitLen := rfl
@[simp] theorem State.withBitbuf_decSymCount (m : Memory Word) : (s.withBitbuf m).decSymCount = s.decSymCount := rfl
@[simp] theorem State.withBitbuf_pending (m : Memory Word) : (s.withBitbuf m).pending = s.pending := rfl
@[simp] theorem State.withBitbuf_freq (m : Memory Word) : (s.withBitbuf m).freq = s.freq := rfl
@[simp] theorem State.withBitbuf_node (m : Memory Word) : (s.withBitbuf m).node = s.node := rfl
@[simp] theorem State.withBitbuf_code (m : Memory Word) : (s.withBitbuf m).code = s.code := rfl
@[simp] theorem State.withBitbuf_symbuf (m : Memory Word) : (s.withBitbuf m).symbuf = s.symbuf := rfl
@[simp] theorem State.withBitbuf_bitbuf (m : Memory Word) : (s.withBitbuf m).bitbuf = m := rfl
@[simp] theorem State.withBitbuf_draws (m : Memory Word) : (s.withBitbuf m).draws = s.draws := rfl
@[simp] theorem State.withBitbuf_inputs (m : Memory Word) : (s.withBitbuf m).inputs = s.inputs := rfl
@[simp] theorem State.withBitbuf_resp (m : Memory Word) : (s.withBitbuf m).resp = s.resp := rfl

/-! ## withTree -/

@[simp] theorem State.withTree_cfg (n : BitVec 10) (r : NodeId) : (s.withTree n r).cfg = s.cfg := rfl
@[simp] theorem State.withTree_busy (n : BitVec 10) (r : NodeId) : (s.withTree n r).busy = s.busy := rfl
@[simp] theorem State.withTree_done (n : BitVec 10) (r : NodeId) : (s.withTree n r).done = s.done := rfl
@[simp] theorem State.withTree_err (n : BitVec 10) (r : NodeId) : (s.withTree n r).err = s.err := rfl
@[simp] theorem State.withTree_ovr (n : BitVec 10) (r : NodeId) : (s.withTree n r).ovr = s.ovr := rfl
@[simp] theorem State.withTree_codesValid (n : BitVec 10) (r : NodeId) : (s.withTree n r).codesValid = s.codesValid := rfl
@[simp] theorem State.withTree_doneIe (n : BitVec 10) (r : NodeId) : (s.withTree n r).doneIe = s.doneIe := rfl
@[simp] theorem State.withTree_errIe (n : BitVec 10) (r : NodeId) : (s.withTree n r).errIe = s.errIe := rfl
@[simp] theorem State.withTree_ovrIe (n : BitVec 10) (r : NodeId) : (s.withTree n r).ovrIe = s.ovrIe := rfl
@[simp] theorem State.withTree_errCode (n : BitVec 10) (r : NodeId) : (s.withTree n r).errCode = s.errCode := rfl
@[simp] theorem State.withTree_errInfo0 (n : BitVec 10) (r : NodeId) : (s.withTree n r).errInfo0 = s.errInfo0 := rfl
@[simp] theorem State.withTree_errInfo1 (n : BitVec 10) (r : NodeId) : (s.withTree n r).errInfo1 = s.errInfo1 := rfl
@[simp] theorem State.withTree_nodeCount (n : BitVec 10) (r : NodeId) : (s.withTree n r).nodeCount = n := rfl
@[simp] theorem State.withTree_root (n : BitVec 10) (r : NodeId) : (s.withTree n r).root = r := rfl
@[simp] theorem State.withTree_encBitLen (n : BitVec 10) (r : NodeId) : (s.withTree n r).encBitLen = s.encBitLen := rfl
@[simp] theorem State.withTree_decSymCount (n : BitVec 10) (r : NodeId) : (s.withTree n r).decSymCount = s.decSymCount := rfl
@[simp] theorem State.withTree_pending (n : BitVec 10) (r : NodeId) : (s.withTree n r).pending = s.pending := rfl
@[simp] theorem State.withTree_freq (n : BitVec 10) (r : NodeId) : (s.withTree n r).freq = s.freq := rfl
@[simp] theorem State.withTree_node (n : BitVec 10) (r : NodeId) : (s.withTree n r).node = s.node := rfl
@[simp] theorem State.withTree_code (n : BitVec 10) (r : NodeId) : (s.withTree n r).code = s.code := rfl
@[simp] theorem State.withTree_symbuf (n : BitVec 10) (r : NodeId) : (s.withTree n r).symbuf = s.symbuf := rfl
@[simp] theorem State.withTree_bitbuf (n : BitVec 10) (r : NodeId) : (s.withTree n r).bitbuf = s.bitbuf := rfl
@[simp] theorem State.withTree_draws (n : BitVec 10) (r : NodeId) : (s.withTree n r).draws = s.draws := rfl
@[simp] theorem State.withTree_inputs (n : BitVec 10) (r : NodeId) : (s.withTree n r).inputs = s.inputs := rfl
@[simp] theorem State.withTree_resp (n : BitVec 10) (r : NodeId) : (s.withTree n r).resp = s.resp := rfl

/-! ## withCodesValid -/

@[simp] theorem State.withCodesValid_cfg (b : Bool) : (s.withCodesValid b).cfg = s.cfg := rfl
@[simp] theorem State.withCodesValid_busy (b : Bool) : (s.withCodesValid b).busy = s.busy := rfl
@[simp] theorem State.withCodesValid_done (b : Bool) : (s.withCodesValid b).done = s.done := rfl
@[simp] theorem State.withCodesValid_err (b : Bool) : (s.withCodesValid b).err = s.err := rfl
@[simp] theorem State.withCodesValid_ovr (b : Bool) : (s.withCodesValid b).ovr = s.ovr := rfl
@[simp] theorem State.withCodesValid_codesValid (b : Bool) : (s.withCodesValid b).codesValid = b := rfl
@[simp] theorem State.withCodesValid_doneIe (b : Bool) : (s.withCodesValid b).doneIe = s.doneIe := rfl
@[simp] theorem State.withCodesValid_errIe (b : Bool) : (s.withCodesValid b).errIe = s.errIe := rfl
@[simp] theorem State.withCodesValid_ovrIe (b : Bool) : (s.withCodesValid b).ovrIe = s.ovrIe := rfl
@[simp] theorem State.withCodesValid_errCode (b : Bool) : (s.withCodesValid b).errCode = s.errCode := rfl
@[simp] theorem State.withCodesValid_errInfo0 (b : Bool) : (s.withCodesValid b).errInfo0 = s.errInfo0 := rfl
@[simp] theorem State.withCodesValid_errInfo1 (b : Bool) : (s.withCodesValid b).errInfo1 = s.errInfo1 := rfl
@[simp] theorem State.withCodesValid_nodeCount (b : Bool) : (s.withCodesValid b).nodeCount = s.nodeCount := rfl
@[simp] theorem State.withCodesValid_root (b : Bool) : (s.withCodesValid b).root = s.root := rfl
@[simp] theorem State.withCodesValid_encBitLen (b : Bool) : (s.withCodesValid b).encBitLen = s.encBitLen := rfl
@[simp] theorem State.withCodesValid_decSymCount (b : Bool) : (s.withCodesValid b).decSymCount = s.decSymCount := rfl
@[simp] theorem State.withCodesValid_pending (b : Bool) : (s.withCodesValid b).pending = s.pending := rfl
@[simp] theorem State.withCodesValid_freq (b : Bool) : (s.withCodesValid b).freq = s.freq := rfl
@[simp] theorem State.withCodesValid_node (b : Bool) : (s.withCodesValid b).node = s.node := rfl
@[simp] theorem State.withCodesValid_code (b : Bool) : (s.withCodesValid b).code = s.code := rfl
@[simp] theorem State.withCodesValid_symbuf (b : Bool) : (s.withCodesValid b).symbuf = s.symbuf := rfl
@[simp] theorem State.withCodesValid_bitbuf (b : Bool) : (s.withCodesValid b).bitbuf = s.bitbuf := rfl
@[simp] theorem State.withCodesValid_draws (b : Bool) : (s.withCodesValid b).draws = s.draws := rfl
@[simp] theorem State.withCodesValid_inputs (b : Bool) : (s.withCodesValid b).inputs = s.inputs := rfl
@[simp] theorem State.withCodesValid_resp (b : Bool) : (s.withCodesValid b).resp = s.resp := rfl

/-! ## withEncBitLen -/

@[simp] theorem State.withEncBitLen_cfg (v : Word) : (s.withEncBitLen v).cfg = s.cfg := rfl
@[simp] theorem State.withEncBitLen_busy (v : Word) : (s.withEncBitLen v).busy = s.busy := rfl
@[simp] theorem State.withEncBitLen_done (v : Word) : (s.withEncBitLen v).done = s.done := rfl
@[simp] theorem State.withEncBitLen_err (v : Word) : (s.withEncBitLen v).err = s.err := rfl
@[simp] theorem State.withEncBitLen_ovr (v : Word) : (s.withEncBitLen v).ovr = s.ovr := rfl
@[simp] theorem State.withEncBitLen_codesValid (v : Word) : (s.withEncBitLen v).codesValid = s.codesValid := rfl
@[simp] theorem State.withEncBitLen_doneIe (v : Word) : (s.withEncBitLen v).doneIe = s.doneIe := rfl
@[simp] theorem State.withEncBitLen_errIe (v : Word) : (s.withEncBitLen v).errIe = s.errIe := rfl
@[simp] theorem State.withEncBitLen_ovrIe (v : Word) : (s.withEncBitLen v).ovrIe = s.ovrIe := rfl
@[simp] theorem State.withEncBitLen_errCode (v : Word) : (s.withEncBitLen v).errCode = s.errCode := rfl
@[simp] theorem State.withEncBitLen_errInfo0 (v : Word) : (s.withEncBitLen v).errInfo0 = s.errInfo0 := rfl
@[simp] theorem State.withEncBitLen_errInfo1 (v : Word) : (s.withEncBitLen v).errInfo1 = s.errInfo1 := rfl
@[simp] theorem State.withEncBitLen_nodeCount (v : Word) : (s.withEncBitLen v).nodeCount = s.nodeCount := rfl
@[simp] theorem State.withEncBitLen_root (v : Word) : (s.withEncBitLen v).root = s.root := rfl
@[simp] theorem State.withEncBitLen_encBitLen (v : Word) : (s.withEncBitLen v).encBitLen = v := rfl
@[simp] theorem State.withEncBitLen_decSymCount (v : Word) : (s.withEncBitLen v).decSymCount = s.decSymCount := rfl
@[simp] theorem State.withEncBitLen_pending (v : Word) : (s.withEncBitLen v).pending = s.pending := rfl
@[simp] theorem State.withEncBitLen_freq (v : Word) : (s.withEncBitLen v).freq = s.freq := rfl
@[simp] theorem State.withEncBitLen_node (v : Word) : (s.withEncBitLen v).node = s.node := rfl
@[simp] theorem State.withEncBitLen_code (v : Word) : (s.withEncBitLen v).code = s.code := rfl
@[simp] theorem State.withEncBitLen_symbuf (v : Word) : (s.withEncBitLen v).symbuf = s.symbuf := rfl
@[simp] theorem State.withEncBitLen_bitbuf (v : Word) : (s.withEncBitLen v).bitbuf = s.bitbuf := rfl
@[simp] theorem State.withEncBitLen_draws (v : Word) : (s.withEncBitLen v).draws = s.draws := rfl
@[simp] theorem State.withEncBitLen_inputs (v : Word) : (s.withEncBitLen v).inputs = s.inputs := rfl
@[simp] theorem State.withEncBitLen_resp (v : Word) : (s.withEncBitLen v).resp = s.resp := rfl

/-! ## withDecSymCount -/

@[simp] theorem State.withDecSymCount_cfg (v : Word) : (s.withDecSymCount v).cfg = s.cfg := rfl
@[simp] theorem State.withDecSymCount_busy (v : Word) : (s.withDecSymCount v).busy = s.busy := rfl
@[simp] theorem State.withDecSymCount_done (v : Word) : (s.withDecSymCount v).done = s.done := rfl
@[simp] theorem State.withDecSymCount_err (v : Word) : (s.withDecSymCount v).err = s.err := rfl
@[simp] theorem State.withDecSymCount_ovr (v : Word) : (s.withDecSymCount v).ovr = s.ovr := rfl
@[simp] theorem State.withDecSymCount_codesValid (v : Word) : (s.withDecSymCount v).codesValid = s.codesValid := rfl
@[simp] theorem State.withDecSymCount_doneIe (v : Word) : (s.withDecSymCount v).doneIe = s.doneIe := rfl
@[simp] theorem State.withDecSymCount_errIe (v : Word) : (s.withDecSymCount v).errIe = s.errIe := rfl
@[simp] theorem State.withDecSymCount_ovrIe (v : Word) : (s.withDecSymCount v).ovrIe = s.ovrIe := rfl
@[simp] theorem State.withDecSymCount_errCode (v : Word) : (s.withDecSymCount v).errCode = s.errCode := rfl
@[simp] theorem State.withDecSymCount_errInfo0 (v : Word) : (s.withDecSymCount v).errInfo0 = s.errInfo0 := rfl
@[simp] theorem State.withDecSymCount_errInfo1 (v : Word) : (s.withDecSymCount v).errInfo1 = s.errInfo1 := rfl
@[simp] theorem State.withDecSymCount_nodeCount (v : Word) : (s.withDecSymCount v).nodeCount = s.nodeCount := rfl
@[simp] theorem State.withDecSymCount_root (v : Word) : (s.withDecSymCount v).root = s.root := rfl
@[simp] theorem State.withDecSymCount_encBitLen (v : Word) : (s.withDecSymCount v).encBitLen = s.encBitLen := rfl
@[simp] theorem State.withDecSymCount_decSymCount (v : Word) : (s.withDecSymCount v).decSymCount = v := rfl
@[simp] theorem State.withDecSymCount_pending (v : Word) : (s.withDecSymCount v).pending = s.pending := rfl
@[simp] theorem State.withDecSymCount_freq (v : Word) : (s.withDecSymCount v).freq = s.freq := rfl
@[simp] theorem State.withDecSymCount_node (v : Word) : (s.withDecSymCount v).node = s.node := rfl
@[simp] theorem State.withDecSymCount_code (v : Word) : (s.withDecSymCount v).code = s.code := rfl
@[simp] theorem State.withDecSymCount_symbuf (v : Word) : (s.withDecSymCount v).symbuf = s.symbuf := rfl
@[simp] theorem State.withDecSymCount_bitbuf (v : Word) : (s.withDecSymCount v).bitbuf = s.bitbuf := rfl
@[simp] theorem State.withDecSymCount_draws (v : Word) : (s.withDecSymCount v).draws = s.draws := rfl
@[simp] theorem State.withDecSymCount_inputs (v : Word) : (s.withDecSymCount v).inputs = s.inputs := rfl
@[simp] theorem State.withDecSymCount_resp (v : Word) : (s.withDecSymCount v).resp = s.resp := rfl

/-! ## withEnables -/

@[simp] theorem State.withEnables_cfg (d e o : Bool) : (s.withEnables d e o).cfg = s.cfg := rfl
@[simp] theorem State.withEnables_busy (d e o : Bool) : (s.withEnables d e o).busy = s.busy := rfl
@[simp] theorem State.withEnables_done (d e o : Bool) : (s.withEnables d e o).done = s.done := rfl
@[simp] theorem State.withEnables_err (d e o : Bool) : (s.withEnables d e o).err = s.err := rfl
@[simp] theorem State.withEnables_ovr (d e o : Bool) : (s.withEnables d e o).ovr = s.ovr := rfl
@[simp] theorem State.withEnables_codesValid (d e o : Bool) : (s.withEnables d e o).codesValid = s.codesValid := rfl
@[simp] theorem State.withEnables_doneIe (d e o : Bool) : (s.withEnables d e o).doneIe = d := rfl
@[simp] theorem State.withEnables_errIe (d e o : Bool) : (s.withEnables d e o).errIe = e := rfl
@[simp] theorem State.withEnables_ovrIe (d e o : Bool) : (s.withEnables d e o).ovrIe = o := rfl
@[simp] theorem State.withEnables_errCode (d e o : Bool) : (s.withEnables d e o).errCode = s.errCode := rfl
@[simp] theorem State.withEnables_errInfo0 (d e o : Bool) : (s.withEnables d e o).errInfo0 = s.errInfo0 := rfl
@[simp] theorem State.withEnables_errInfo1 (d e o : Bool) : (s.withEnables d e o).errInfo1 = s.errInfo1 := rfl
@[simp] theorem State.withEnables_nodeCount (d e o : Bool) : (s.withEnables d e o).nodeCount = s.nodeCount := rfl
@[simp] theorem State.withEnables_root (d e o : Bool) : (s.withEnables d e o).root = s.root := rfl
@[simp] theorem State.withEnables_encBitLen (d e o : Bool) : (s.withEnables d e o).encBitLen = s.encBitLen := rfl
@[simp] theorem State.withEnables_decSymCount (d e o : Bool) : (s.withEnables d e o).decSymCount = s.decSymCount := rfl
@[simp] theorem State.withEnables_pending (d e o : Bool) : (s.withEnables d e o).pending = s.pending := rfl
@[simp] theorem State.withEnables_freq (d e o : Bool) : (s.withEnables d e o).freq = s.freq := rfl
@[simp] theorem State.withEnables_node (d e o : Bool) : (s.withEnables d e o).node = s.node := rfl
@[simp] theorem State.withEnables_code (d e o : Bool) : (s.withEnables d e o).code = s.code := rfl
@[simp] theorem State.withEnables_symbuf (d e o : Bool) : (s.withEnables d e o).symbuf = s.symbuf := rfl
@[simp] theorem State.withEnables_bitbuf (d e o : Bool) : (s.withEnables d e o).bitbuf = s.bitbuf := rfl
@[simp] theorem State.withEnables_draws (d e o : Bool) : (s.withEnables d e o).draws = s.draws := rfl
@[simp] theorem State.withEnables_inputs (d e o : Bool) : (s.withEnables d e o).inputs = s.inputs := rfl
@[simp] theorem State.withEnables_resp (d e o : Bool) : (s.withEnables d e o).resp = s.resp := rfl

/-! ## completeDone -/

@[simp] theorem completeDone_cfg : (completeDone s).cfg = s.cfg := rfl
@[simp] theorem completeDone_busy : (completeDone s).busy = false := rfl
@[simp] theorem completeDone_done : (completeDone s).done = true := rfl
@[simp] theorem completeDone_err : (completeDone s).err = s.err := rfl
@[simp] theorem completeDone_ovr : (completeDone s).ovr = s.ovr := rfl
@[simp] theorem completeDone_codesValid : (completeDone s).codesValid = s.codesValid := rfl
@[simp] theorem completeDone_doneIe : (completeDone s).doneIe = s.doneIe := rfl
@[simp] theorem completeDone_errIe : (completeDone s).errIe = s.errIe := rfl
@[simp] theorem completeDone_ovrIe : (completeDone s).ovrIe = s.ovrIe := rfl
@[simp] theorem completeDone_errCode : (completeDone s).errCode = s.errCode := rfl
@[simp] theorem completeDone_errInfo0 : (completeDone s).errInfo0 = s.errInfo0 := rfl
@[simp] theorem completeDone_errInfo1 : (completeDone s).errInfo1 = s.errInfo1 := rfl
@[simp] theorem completeDone_nodeCount : (completeDone s).nodeCount = s.nodeCount := rfl
@[simp] theorem completeDone_root : (completeDone s).root = s.root := rfl
@[simp] theorem completeDone_encBitLen : (completeDone s).encBitLen = s.encBitLen := rfl
@[simp] theorem completeDone_decSymCount : (completeDone s).decSymCount = s.decSymCount := rfl
@[simp] theorem completeDone_pending : (completeDone s).pending = s.pending := rfl
@[simp] theorem completeDone_freq : (completeDone s).freq = s.freq := rfl
@[simp] theorem completeDone_node : (completeDone s).node = s.node := rfl
@[simp] theorem completeDone_code : (completeDone s).code = s.code := rfl
@[simp] theorem completeDone_symbuf : (completeDone s).symbuf = s.symbuf := rfl
@[simp] theorem completeDone_bitbuf : (completeDone s).bitbuf = s.bitbuf := rfl
@[simp] theorem completeDone_draws : (completeDone s).draws = s.draws := rfl
@[simp] theorem completeDone_inputs : (completeDone s).inputs = s.inputs := rfl
@[simp] theorem completeDone_resp : (completeDone s).resp = s.resp := rfl

/-! ## errorEntry -/

@[simp] theorem errorEntry_cfg (e : ErrCode) (i0 i1 : Word) : (errorEntry e i0 i1 s).cfg = s.cfg := rfl
@[simp] theorem errorEntry_busy (e : ErrCode) (i0 i1 : Word) : (errorEntry e i0 i1 s).busy = false := rfl
@[simp] theorem errorEntry_done (e : ErrCode) (i0 i1 : Word) : (errorEntry e i0 i1 s).done = s.done := rfl
@[simp] theorem errorEntry_err (e : ErrCode) (i0 i1 : Word) : (errorEntry e i0 i1 s).err = true := rfl
@[simp] theorem errorEntry_ovr (e : ErrCode) (i0 i1 : Word) : (errorEntry e i0 i1 s).ovr = s.ovr := rfl
@[simp] theorem errorEntry_codesValid (e : ErrCode) (i0 i1 : Word) : (errorEntry e i0 i1 s).codesValid = s.codesValid := rfl
@[simp] theorem errorEntry_doneIe (e : ErrCode) (i0 i1 : Word) : (errorEntry e i0 i1 s).doneIe = s.doneIe := rfl
@[simp] theorem errorEntry_errIe (e : ErrCode) (i0 i1 : Word) : (errorEntry e i0 i1 s).errIe = s.errIe := rfl
@[simp] theorem errorEntry_ovrIe (e : ErrCode) (i0 i1 : Word) : (errorEntry e i0 i1 s).ovrIe = s.ovrIe := rfl
@[simp] theorem errorEntry_errCode (e : ErrCode) (i0 i1 : Word) : (errorEntry e i0 i1 s).errCode = e.code := rfl
@[simp] theorem errorEntry_errInfo0 (e : ErrCode) (i0 i1 : Word) : (errorEntry e i0 i1 s).errInfo0 = i0 := rfl
@[simp] theorem errorEntry_errInfo1 (e : ErrCode) (i0 i1 : Word) : (errorEntry e i0 i1 s).errInfo1 = i1 := rfl
@[simp] theorem errorEntry_nodeCount (e : ErrCode) (i0 i1 : Word) : (errorEntry e i0 i1 s).nodeCount = s.nodeCount := rfl
@[simp] theorem errorEntry_root (e : ErrCode) (i0 i1 : Word) : (errorEntry e i0 i1 s).root = s.root := rfl
@[simp] theorem errorEntry_encBitLen (e : ErrCode) (i0 i1 : Word) : (errorEntry e i0 i1 s).encBitLen = s.encBitLen := rfl
@[simp] theorem errorEntry_decSymCount (e : ErrCode) (i0 i1 : Word) : (errorEntry e i0 i1 s).decSymCount = s.decSymCount := rfl
@[simp] theorem errorEntry_pending (e : ErrCode) (i0 i1 : Word) : (errorEntry e i0 i1 s).pending = s.pending := rfl
@[simp] theorem errorEntry_freq (e : ErrCode) (i0 i1 : Word) : (errorEntry e i0 i1 s).freq = s.freq := rfl
@[simp] theorem errorEntry_node (e : ErrCode) (i0 i1 : Word) : (errorEntry e i0 i1 s).node = s.node := rfl
@[simp] theorem errorEntry_code (e : ErrCode) (i0 i1 : Word) : (errorEntry e i0 i1 s).code = s.code := rfl
@[simp] theorem errorEntry_symbuf (e : ErrCode) (i0 i1 : Word) : (errorEntry e i0 i1 s).symbuf = s.symbuf := rfl
@[simp] theorem errorEntry_bitbuf (e : ErrCode) (i0 i1 : Word) : (errorEntry e i0 i1 s).bitbuf = s.bitbuf := rfl
@[simp] theorem errorEntry_draws (e : ErrCode) (i0 i1 : Word) : (errorEntry e i0 i1 s).draws = s.draws := rfl
@[simp] theorem errorEntry_inputs (e : ErrCode) (i0 i1 : Word) : (errorEntry e i0 i1 s).inputs = s.inputs := rfl
@[simp] theorem errorEntry_resp (e : ErrCode) (i0 i1 : Word) : (errorEntry e i0 i1 s).resp = s.resp := rfl

/-! ## acknowledge -/

@[simp] theorem acknowledge_cfg (v : Word) : (acknowledge v s).cfg = s.cfg := rfl
@[simp] theorem acknowledge_busy (v : Word) : (acknowledge v s).busy = s.busy := rfl
@[simp] theorem acknowledge_done (v : Word) : (acknowledge v s).done = (s.done && !v.getLsbD 1) := rfl
@[simp] theorem acknowledge_err (v : Word) : (acknowledge v s).err = (s.err && !v.getLsbD 2) := rfl
@[simp] theorem acknowledge_ovr (v : Word) : (acknowledge v s).ovr = (s.ovr && !v.getLsbD 3) := rfl
@[simp] theorem acknowledge_codesValid (v : Word) : (acknowledge v s).codesValid = s.codesValid := rfl
@[simp] theorem acknowledge_doneIe (v : Word) : (acknowledge v s).doneIe = s.doneIe := rfl
@[simp] theorem acknowledge_errIe (v : Word) : (acknowledge v s).errIe = s.errIe := rfl
@[simp] theorem acknowledge_ovrIe (v : Word) : (acknowledge v s).ovrIe = s.ovrIe := rfl
@[simp] theorem acknowledge_errCode (v : Word) : (acknowledge v s).errCode = s.errCode := rfl
@[simp] theorem acknowledge_errInfo0 (v : Word) : (acknowledge v s).errInfo0 = s.errInfo0 := rfl
@[simp] theorem acknowledge_errInfo1 (v : Word) : (acknowledge v s).errInfo1 = s.errInfo1 := rfl
@[simp] theorem acknowledge_nodeCount (v : Word) : (acknowledge v s).nodeCount = s.nodeCount := rfl
@[simp] theorem acknowledge_root (v : Word) : (acknowledge v s).root = s.root := rfl
@[simp] theorem acknowledge_encBitLen (v : Word) : (acknowledge v s).encBitLen = s.encBitLen := rfl
@[simp] theorem acknowledge_decSymCount (v : Word) : (acknowledge v s).decSymCount = s.decSymCount := rfl
@[simp] theorem acknowledge_pending (v : Word) : (acknowledge v s).pending = s.pending := rfl
@[simp] theorem acknowledge_freq (v : Word) : (acknowledge v s).freq = s.freq := rfl
@[simp] theorem acknowledge_node (v : Word) : (acknowledge v s).node = s.node := rfl
@[simp] theorem acknowledge_code (v : Word) : (acknowledge v s).code = s.code := rfl
@[simp] theorem acknowledge_symbuf (v : Word) : (acknowledge v s).symbuf = s.symbuf := rfl
@[simp] theorem acknowledge_bitbuf (v : Word) : (acknowledge v s).bitbuf = s.bitbuf := rfl
@[simp] theorem acknowledge_draws (v : Word) : (acknowledge v s).draws = s.draws := rfl
@[simp] theorem acknowledge_inputs (v : Word) : (acknowledge v s).inputs = s.inputs := rfl
@[simp] theorem acknowledge_resp (v : Word) : (acknowledge v s).resp = s.resp := rfl

/-! ## acceptCommon -/

@[simp] theorem acceptCommon_cfg (w : Word) : (acceptCommon w s).cfg = s.cfg := rfl
@[simp] theorem acceptCommon_busy (w : Word) : (acceptCommon w s).busy = true := rfl
@[simp] theorem acceptCommon_done (w : Word) : (acceptCommon w s).done = false := rfl
@[simp] theorem acceptCommon_err (w : Word) : (acceptCommon w s).err = false := rfl
@[simp] theorem acceptCommon_ovr (w : Word) : (acceptCommon w s).ovr = s.ovr := rfl
@[simp] theorem acceptCommon_codesValid (w : Word) : (acceptCommon w s).codesValid = s.codesValid := rfl
@[simp] theorem acceptCommon_doneIe (w : Word) : (acceptCommon w s).doneIe = s.doneIe := rfl
@[simp] theorem acceptCommon_errIe (w : Word) : (acceptCommon w s).errIe = s.errIe := rfl
@[simp] theorem acceptCommon_ovrIe (w : Word) : (acceptCommon w s).ovrIe = s.ovrIe := rfl
@[simp] theorem acceptCommon_errCode (w : Word) : (acceptCommon w s).errCode = 0#4 := rfl
@[simp] theorem acceptCommon_errInfo0 (w : Word) : (acceptCommon w s).errInfo0 = 0#32 := rfl
@[simp] theorem acceptCommon_errInfo1 (w : Word) : (acceptCommon w s).errInfo1 = 0#32 := rfl
@[simp] theorem acceptCommon_nodeCount (w : Word) : (acceptCommon w s).nodeCount = s.nodeCount := rfl
@[simp] theorem acceptCommon_root (w : Word) : (acceptCommon w s).root = s.root := rfl
@[simp] theorem acceptCommon_encBitLen (w : Word) : (acceptCommon w s).encBitLen = s.encBitLen := rfl
@[simp] theorem acceptCommon_decSymCount (w : Word) : (acceptCommon w s).decSymCount = s.decSymCount := rfl
@[simp] theorem acceptCommon_pending (w : Word) : (acceptCommon w s).pending = w := rfl
@[simp] theorem acceptCommon_freq (w : Word) : (acceptCommon w s).freq = s.freq := rfl
@[simp] theorem acceptCommon_node (w : Word) : (acceptCommon w s).node = s.node := rfl
@[simp] theorem acceptCommon_code (w : Word) : (acceptCommon w s).code = s.code := rfl
@[simp] theorem acceptCommon_symbuf (w : Word) : (acceptCommon w s).symbuf = s.symbuf := rfl
@[simp] theorem acceptCommon_bitbuf (w : Word) : (acceptCommon w s).bitbuf = s.bitbuf := rfl
@[simp] theorem acceptCommon_draws (w : Word) : (acceptCommon w s).draws = s.draws := rfl
@[simp] theorem acceptCommon_inputs (w : Word) : (acceptCommon w s).inputs = s.inputs := rfl
@[simp] theorem acceptCommon_resp (w : Word) : (acceptCommon w s).resp = s.resp := rfl

/-! ## overrun -/

@[simp] theorem overrun_cfg : (overrun s).cfg = s.cfg := rfl
@[simp] theorem overrun_busy : (overrun s).busy = s.busy := rfl
@[simp] theorem overrun_done : (overrun s).done = s.done := rfl
@[simp] theorem overrun_err : (overrun s).err = s.err := rfl
@[simp] theorem overrun_ovr : (overrun s).ovr = true := rfl
@[simp] theorem overrun_codesValid : (overrun s).codesValid = s.codesValid := rfl
@[simp] theorem overrun_doneIe : (overrun s).doneIe = s.doneIe := rfl
@[simp] theorem overrun_errIe : (overrun s).errIe = s.errIe := rfl
@[simp] theorem overrun_ovrIe : (overrun s).ovrIe = s.ovrIe := rfl
@[simp] theorem overrun_errCode : (overrun s).errCode = s.errCode := rfl
@[simp] theorem overrun_errInfo0 : (overrun s).errInfo0 = s.errInfo0 := rfl
@[simp] theorem overrun_errInfo1 : (overrun s).errInfo1 = s.errInfo1 := rfl
@[simp] theorem overrun_nodeCount : (overrun s).nodeCount = s.nodeCount := rfl
@[simp] theorem overrun_root : (overrun s).root = s.root := rfl
@[simp] theorem overrun_encBitLen : (overrun s).encBitLen = s.encBitLen := rfl
@[simp] theorem overrun_decSymCount : (overrun s).decSymCount = s.decSymCount := rfl
@[simp] theorem overrun_pending : (overrun s).pending = s.pending := rfl
@[simp] theorem overrun_freq : (overrun s).freq = s.freq := rfl
@[simp] theorem overrun_node : (overrun s).node = s.node := rfl
@[simp] theorem overrun_code : (overrun s).code = s.code := rfl
@[simp] theorem overrun_symbuf : (overrun s).symbuf = s.symbuf := rfl
@[simp] theorem overrun_bitbuf : (overrun s).bitbuf = s.bitbuf := rfl
@[simp] theorem overrun_draws : (overrun s).draws = s.draws := rfl
@[simp] theorem overrun_inputs : (overrun s).inputs = s.inputs := rfl
@[simp] theorem overrun_resp : (overrun s).resp = s.resp := rfl

/-! ## resetRegisters -/

@[simp] theorem resetRegisters_cfg : (resetRegisters s).cfg = s.cfg := rfl
@[simp] theorem resetRegisters_busy : (resetRegisters s).busy = false := rfl
@[simp] theorem resetRegisters_done : (resetRegisters s).done = false := rfl
@[simp] theorem resetRegisters_err : (resetRegisters s).err = false := rfl
@[simp] theorem resetRegisters_ovr : (resetRegisters s).ovr = false := rfl
@[simp] theorem resetRegisters_codesValid : (resetRegisters s).codesValid = false := rfl
@[simp] theorem resetRegisters_doneIe : (resetRegisters s).doneIe = false := rfl
@[simp] theorem resetRegisters_errIe : (resetRegisters s).errIe = false := rfl
@[simp] theorem resetRegisters_ovrIe : (resetRegisters s).ovrIe = false := rfl
@[simp] theorem resetRegisters_errCode : (resetRegisters s).errCode = 0#4 := rfl
@[simp] theorem resetRegisters_errInfo0 : (resetRegisters s).errInfo0 = 0#32 := rfl
@[simp] theorem resetRegisters_errInfo1 : (resetRegisters s).errInfo1 = 0#32 := rfl
@[simp] theorem resetRegisters_nodeCount : (resetRegisters s).nodeCount = 0#10 := rfl
@[simp] theorem resetRegisters_root : (resetRegisters s).root = 0#9 := rfl
@[simp] theorem resetRegisters_encBitLen : (resetRegisters s).encBitLen = 0#32 := rfl
@[simp] theorem resetRegisters_decSymCount : (resetRegisters s).decSymCount = 0#32 := rfl
@[simp] theorem resetRegisters_pending : (resetRegisters s).pending = Config.freePending s.draws := rfl
@[simp] theorem resetRegisters_freq : (resetRegisters s).freq = s.freq := rfl
@[simp] theorem resetRegisters_node : (resetRegisters s).node = s.node := rfl
@[simp] theorem resetRegisters_code : (resetRegisters s).code = s.code := rfl
@[simp] theorem resetRegisters_symbuf : (resetRegisters s).symbuf = s.symbuf := rfl
@[simp] theorem resetRegisters_bitbuf : (resetRegisters s).bitbuf = s.bitbuf := rfl
@[simp] theorem resetRegisters_draws : (resetRegisters s).draws = s.draws + 1 := rfl
@[simp] theorem resetRegisters_inputs : (resetRegisters s).inputs = s.inputs := rfl
@[simp] theorem resetRegisters_resp : (resetRegisters s).resp = s.resp := rfl

end Sys2Proof.Machine
end

