-- ==== Sys2Proof/Laws/Ops.lean ====
section
/-! SUPPORT. What each shared operation can do, said once: completion, command issue, host accesses, the
commands' frames and the step. -/

namespace Sys2Proof.Machine

/-! ## Completion and command issue -/

@[simp] theorem finish_succeed (s : State) : finish .succeed s = completeDone s := rfl

@[simp] theorem finish_fail (e : ErrCode) (i0 i1 : Word) (s : State) :
    finish (.fail e i0 i1) s = errorEntry e i0 i1 s := rfl

@[simp] theorem finish_busy (e : Ending) (s : State) : (finish e s).busy = false := by cases e <;> rfl

@[simp] theorem finish_cfg (e : Ending) (s : State) : (finish e s).cfg = s.cfg := by cases e <;> rfl
@[simp] theorem finish_ovr (e : Ending) (s : State) : (finish e s).ovr = s.ovr := by cases e <;> rfl
@[simp] theorem finish_codesValid (e : Ending) (s : State) : (finish e s).codesValid = s.codesValid := by cases e <;> rfl
@[simp] theorem finish_doneIe (e : Ending) (s : State) : (finish e s).doneIe = s.doneIe := by cases e <;> rfl
@[simp] theorem finish_errIe (e : Ending) (s : State) : (finish e s).errIe = s.errIe := by cases e <;> rfl
@[simp] theorem finish_ovrIe (e : Ending) (s : State) : (finish e s).ovrIe = s.ovrIe := by cases e <;> rfl
@[simp] theorem finish_nodeCount (e : Ending) (s : State) : (finish e s).nodeCount = s.nodeCount := by cases e <;> rfl
@[simp] theorem finish_root (e : Ending) (s : State) : (finish e s).root = s.root := by cases e <;> rfl
@[simp] theorem finish_encBitLen (e : Ending) (s : State) : (finish e s).encBitLen = s.encBitLen := by cases e <;> rfl
@[simp] theorem finish_decSymCount (e : Ending) (s : State) : (finish e s).decSymCount = s.decSymCount := by cases e <;> rfl
@[simp] theorem finish_pending (e : Ending) (s : State) : (finish e s).pending = s.pending := by cases e <;> rfl
@[simp] theorem finish_freq (e : Ending) (s : State) : (finish e s).freq = s.freq := by cases e <;> rfl
@[simp] theorem finish_node (e : Ending) (s : State) : (finish e s).node = s.node := by cases e <;> rfl
@[simp] theorem finish_code (e : Ending) (s : State) : (finish e s).code = s.code := by cases e <;> rfl
@[simp] theorem finish_symbuf (e : Ending) (s : State) : (finish e s).symbuf = s.symbuf := by cases e <;> rfl
@[simp] theorem finish_bitbuf (e : Ending) (s : State) : (finish e s).bitbuf = s.bitbuf := by cases e <;> rfl
@[simp] theorem finish_draws (e : Ending) (s : State) : (finish e s).draws = s.draws := by cases e <;> rfl
@[simp] theorem finish_inputs (e : Ending) (s : State) : (finish e s).inputs = s.inputs := by cases e <;> rfl
@[simp] theorem finish_resp (e : Ending) (s : State) : (finish e s).resp = s.resp := by cases e <;> rfl

/-- Acceptance of a legal word (R120, R121). -/
theorem accept_legal {w : Word} {i : Instr} (h : decodeWord w = .ok i) (s : State) :
    accept w s = startEffects i (acceptCommon w s) := by simp [accept, h]

/-- Acceptance of an illegal word (R105, R120). -/
theorem accept_illegal {w : Word} {r : DecodeReject} (h : decodeWord w = .error r) (s : State) :
    accept w s = acceptCommon w s := by simp [accept, h]

theorem issue_idle (w : Word) {s : State} (h : s.busy = false) : issue w s = accept w s := by simp [issue, h]

theorem issue_busy (w : Word) {s : State} (h : s.busy = true) : issue w s = overrun s := by simp [issue, h]

/-! ## Host accesses -/

/-- An access that passes every check of R68. -/
theorem judge_ok {a : Access} {s : State} {t : Target} (hs : a.size = 2#2)
    (ha : a.addr.extractLsb' 0 2 = 0#2) (hr : resolve s.cfg a.addr = some t)
    (hb : s.busy = false ∨ t.isMemory = false) : judge a s = .ok t := by
  simp only [judge, hs, ha, hr]
  rcases hb with hb | hb <;> simp [hb]

/-- What `judge` can answer (R68). -/
theorem judge_cases (a : Access) (s : State) :
    judge a s = .error .busError ∨
      ∃ t, judge a s = .ok t ∧ a.size = 2#2 ∧ a.addr.extractLsb' 0 2 = 0#2 ∧
        resolve s.cfg a.addr = some t ∧ (s.busy = false ∨ t.isMemory = false) := by
  unfold judge
  split
  · exact .inl rfl
  next hs =>
  split
  · exact .inl rfl
  next ha =>
  split
  · exact .inl rfl
  next t hr =>
  split
  · exact .inl rfl
  next hb =>
  refine .inr ⟨t, rfl, Classical.byContradiction hs, Classical.byContradiction ha, hr, ?_⟩
  cases h : s.busy <;> cases h' : t.isMemory <;> simp_all

/-- What an access that `judge` lets pass satisfies (R68). -/
theorem judge_eq_ok {a : Access} {s : State} {t : Target} (h : judge a s = .ok t) :
    a.size = 2#2 ∧ a.addr.extractLsb' 0 2 = 0#2 ∧ resolve s.cfg a.addr = some t ∧
      (s.busy = false ∨ t.isMemory = false) := by
  rcases judge_cases a s with g | ⟨u, g, hs, ha, hr, hb⟩
  · rw [g] at h
    cases h
  · rw [g, Except.ok.injEq] at h
    subst h
    exact ⟨hs, ha, hr, hb⟩

/-- An access is a bus error, a read, or a write (R61). -/
theorem hostAccess_cases (a : Access) (s : State) :
    (judge a s = .error .busError ∧ hostAccess a s = s.withResponse 0#32 true) ∨
    (∃ t, judge a s = .ok t ∧ a.write = false ∧ hostAccess a s = s.withResponse (hostRead t s) false) ∨
    (∃ t, judge a s = .ok t ∧ a.write = true ∧
      hostAccess a s = (hostWrite t a.wdata s).withResponse 0#32 false) := by
  rcases judge_cases a s with h | ⟨t, h, -⟩
  · exact .inl ⟨h, by simp [hostAccess, h]⟩
  · cases hw : a.write
    · exact .inr (.inl ⟨t, h, rfl, by simp [hostAccess, h, hw]⟩)
    · exact .inr (.inr ⟨t, h, rfl, by simp [hostAccess, h, hw]⟩)

/-! ## What the commands may change (R84) -/

/-- BUILD writes NODE memory, `NODE_COUNT` and `ROOT` only. -/
theorem runBuild_frame (s : State) : ∃ m c r, (runBuild s).1 = (s.withNode m).withTree c r := by
  unfold runBuild
  split
  · exact ⟨s.node, s.nodeCount, s.root, rfl⟩
  split
  · exact ⟨s.node, s.nodeCount, s.root, rfl⟩
  · exact ⟨_, _, _, rfl⟩

/-- GENCODES writes the code memory and `CODES_VALID` only. -/
theorem runGencodes_frame (s : State) : ∃ m b, (runGencodes s).1 = (s.withCode m).withCodesValid b := by
  unfold runGencodes
  split
  · exact ⟨s.code, s.codesValid, rfl⟩
  · exact ⟨_, _, rfl⟩

/-- ENCODE writes BITBUF and `ENC_BITLEN` only. -/
theorem runEncode_frame (n : Nat) (s : State) :
    ∃ m v, (runEncode n s).1 = (s.withBitbuf m).withEncBitLen v := by
  unfold runEncode
  split
  · exact ⟨s.bitbuf, s.encBitLen, rfl⟩
  split
  · exact ⟨s.bitbuf, s.encBitLen, rfl⟩
  · unfold writeStream
    split
    · exact ⟨_, _, rfl⟩
    · exact ⟨pack (encodeLoop s n 0 []).stream _ s.bitbuf, s.encBitLen, rfl⟩

/-- DECODE writes SYMBUF and `DEC_SYMCOUNT` only. -/
theorem runDecode_frame (l : Nat) (s : State) :
    ∃ m v, (runDecode l s).1 = (s.withSymbuf m).withDecSymCount v := by
  unfold runDecode
  split
  · exact ⟨s.symbuf, s.decSymCount, rfl⟩
  split
  · exact ⟨s.symbuf, s.decSymCount, rfl⟩
  · unfold writeSymbols
    split
    · exact ⟨_, _, rfl⟩
    · exact ⟨(decodeLoop s l 0 (startCursor s)).1.symbuf, s.decSymCount, rfl⟩

/-! ## The step -/

/-- What the engine can do at its turn: nothing while idle; run the pending command; report an illegal word. -/
theorem engineTurn_cases (s : State) :
    (s.busy = false ∧ engineTurn s = .next s) ∨
    (s.busy = true ∧ ∃ i, decodeWord s.pending = .ok i ∧ engineTurn s = exec i s) ∨
    (s.busy = true ∧ ∃ r, decodeWord s.pending = .error r ∧
      engineTurn s = .next (errorEntry .illegalCommand s.pending 0#32 s)) := by
  cases hb : s.busy
  · exact .inl ⟨rfl, by simp [engineTurn, hb]⟩
  · cases hd : decodeWord s.pending with
    | ok i => exact .inr (.inl ⟨rfl, i, rfl, by simp [engineTurn, hb, complete, hd]⟩)
    | error r =>
      exact .inr (.inr ⟨rfl, r, rfl, by simp [engineTurn, hb, complete, hd, execIllegal]⟩)

/-- What a step can do, by the next event. -/
theorem step_cases (s : State) :
    (s.inputs = [] ∧ step s = engineTurn s) ∨
    (∃ rest, s.inputs = .engine :: rest ∧ step s = engineTurn (s.withInputs rest)) ∨
    (∃ a rest, s.inputs = .access a :: rest ∧ step s = .next (hostAccess a (s.withInputs rest))) ∨
    (∃ f rest, s.inputs = .hardwareReset f :: rest ∧ step s = .next (hardwareReset f (s.withInputs rest))) := by
  unfold step stepOnce
  cases h : s.inputs with
  | nil => exact .inl ⟨rfl, by simp⟩
  | cons ev rest =>
    cases ev with
    | access a => exact .inr (.inr (.inl ⟨a, rest, rfl, rfl⟩))
    | engine => exact .inr (.inl ⟨rest, rfl, rfl⟩)
    | hardwareReset f => exact .inr (.inr (.inr ⟨f, rest, rfl, rfl⟩))

end Sys2Proof.Machine
end

