-- ==== Sys2Proof/Laws/Decoder.lean ====
section
/-! SUPPORT. What the loop of DECODE does (spec 44_decoder.md R210): along a path it moves the cursor, and at the end
of a code it emits. -/

namespace Sys2Proof.Machine

/-- A path that has a first bit starts at an internal node. -/
theorem follow_cons {node : Memory Node} {x y : NodeId} {b : Bool} {p : BitString}
    (h : follow node x (b :: p) = some y) :
    ∃ f l r, node.read x.toNat = .internal f l r ∧ follow node (if b then r else l) p = some y := by
  rw [follow] at h
  split at h
  · cases h
  · next f l r hn => exact ⟨f, l, r, hn, h⟩

/-- A cursor at an internal node moves along a path whose nodes are all internal. -/
theorem decodeLoop_path (s : State) (hr : (s.node.read s.root.toNat).isLeaf = false)
    (p : BitString) (left k : Nat) (c : Cursor) (y : NodeId)
    (hf : follow s.node c.cur p = some y) (hy : (s.node.read y.toNat).isLeaf = false)
    (hb : ∀ i < p.length, streambit s.bitbuf (k + i) = p.getD i false) :
    decodeLoop s (p.length + left) k c = decodeLoop s left (k + p.length) { c with cur := y } := by
  induction p generalizing k c with
  | nil =>
    obtain rfl : c.cur = y := by simpa [follow] using hf
    simp
  | cons b p ih =>
    obtain ⟨f, l, r, hn, hp⟩ := follow_cons hf
    have hb0 : streambit s.bitbuf k = b := by simpa using hb 0 (by simp)
    have hi : (s.node.read (if b then r else l).toNat).isLeaf = false := by
      cases p with
      | nil =>
        obtain rfl : (if b then r else l) = y := by simpa [follow] using hp
        exact hy
      | cons b' p' =>
        obtain ⟨_, _, _, hn', -⟩ := follow_cons hp
        simp [hn', Node.isLeaf]
    have hd : decodeBit s k c = .ok { c with cur := if b then r else l } := by
      simp only [decodeBit]
      cases hroot : s.node.read s.root.toNat with
      | leaf _ _ => simp [hroot, Node.isLeaf] at hr
      | internal _ _ _ =>
        simp only [decodeTreeBit, hn, hb0, Node.left, Node.right]
        cases hc : s.node.read (if b then r else l).toNat with
        | leaf _ _ => simp [hc, Node.isLeaf] at hi
        | internal _ _ _ => simp only
    rw [List.length_cons, Nat.add_right_comm, decodeLoop, hd]
    simp only
    rw [ih (k + 1) _ hp (fun i hi' => by
      have := hb (i + 1) (by simpa using hi')
      simpa [Nat.add_assoc, Nat.add_comm 1] using this)]
    congr 1
    omega

/-- A path in two parts. -/
theorem follow_append (node : Memory Node) (x : NodeId) (p q : BitString) :
    follow node x (p ++ q) = (follow node x p).bind (fun y => follow node y q) := by
  induction p generalizing x with
  | nil => simp [follow]
  | cons b p ih =>
    simp only [List.cons_append, follow]
    split
    · rfl
    · exact ih _

/-- A path to a leaf ends with one edge from an internal node to that leaf. -/
theorem leadsTo_lastEdge {node : Memory Node} {x : NodeId} {p : BitString} {y : Byte}
    (hp : p ≠ []) (h : LeadsTo node x p y) :
    ∃ q b w f l r g, p = q ++ [b] ∧ follow node x q = some w ∧ node.read w.toNat = .internal f l r ∧
      node.read (if b then r else l).toNat = .leaf g y := by
  obtain ⟨z, g, hf, hz⟩ := h
  obtain ⟨q, b, rfl⟩ : ∃ q b, p = q ++ [b] := ⟨_, _, (List.dropLast_append_getLast hp).symm⟩
  rw [follow_append] at hf
  cases hq : follow node x q with
  | none => simp [hq] at hf
  | some w =>
    simp only [hq, Option.bind_some] at hf
    obtain ⟨f, l, r, hn, hl⟩ := follow_cons hf
    obtain rfl : (if b then r else l) = z := by simpa [follow] using hl
    exact ⟨q, b, w, f, l, r, g, rfl, hq, hn, hz⟩

/-- The bit that reaches a leaf (R210). -/
theorem decodeBit_leaf {s : State} (hr : (s.node.read s.root.toNat).isLeaf = false) {k : Nat} {c : Cursor}
    {f g : Word} {l r : NodeId} {y : Byte} (hn : s.node.read c.cur.toNat = .internal f l r)
    (hl : s.node.read (if streambit s.bitbuf k then r else l).toNat = .leaf g y) :
    decodeBit s k c = emit s.cfg.symbufDepth y k { c with cur := s.root, start := k + 1 } := by
  simp only [decodeBit]
  cases hroot : s.node.read s.root.toNat with
  | leaf _ _ => simp [hroot, Node.isLeaf] at hr
  | internal _ _ _ => simp only [decodeTreeBit, hn, Node.left, Node.right, hl]

/-- Along a whole code the loop emits its symbol and the cursor is back at the root; with the buffer full it
ends in SymBufOverflow at the code's last bit (R210). -/
theorem decodeLoop_code (s : State) (hr : (s.node.read s.root.toNat).isLeaf = false)
    (p : BitString) (left k : Nat) (c : Cursor) (y : Byte) (hp : p ≠ [])
    (hl : LeadsTo s.node c.cur p y)
    (hb : ∀ i < p.length, streambit s.bitbuf (k + i) = p.getD i false) :
    (c.count ≠ s.cfg.symbufDepth → decodeLoop s (p.length + left) k c = decodeLoop s left (k + p.length)
      { count := c.count + 1, cur := s.root, start := k + p.length, symbuf := c.symbuf.write c.count y }) ∧
    (c.count = s.cfg.symbufDepth → ∃ w, decodeLoop s (p.length + left) k c = ({ c with cur := w },
      .fail .symBufOverflow (BitVec.ofNat 32 c.count) (BitVec.ofNat 32 (k + p.length - 1)))) := by
  obtain ⟨q, b, w, f, l, r, g, rfl, hq, hn, hy⟩ := leadsTo_lastEdge hp hl
  have hlast : streambit s.bitbuf (k + q.length) = b := by simpa using hb q.length (by simp)
  have hpath := decodeLoop_path s hr q (1 + left) k c w hq (by simp [hn, Node.isLeaf]) (fun i hi => by
    have := hb i (by simp; omega)
    rwa [List.getD_append _ _ _ _ hi] at this)
  have hbit := decodeBit_leaf hr (k := k + q.length) (c := { c with cur := w }) hn (by rw [hlast]; exact hy)
  simp only [List.length_append, List.length_singleton, Nat.add_assoc, hpath]
  rw [Nat.add_comm 1 left, decodeLoop, hbit, emit]
  refine ⟨fun h => ?_, fun h => ⟨w, ?_⟩⟩
  · simp only [h, if_false]
    rfl
  · simp only [h, if_true]
    rfl

end Sys2Proof.Machine
end

