-- ==== Sys2Proof/Laws/Encoder.lean ====
section
/-! SUPPORT. What the loop of ENCODE does (spec 43_encoder.md R190): it runs past symbols whose codes exist and fit. -/

namespace Sys2Proof.Machine

/-- The code of a symbol can be appended: it exists and LEN is its length. -/
def HasCode (s : State) (y : Byte) : Prop :=
  (s.code.read y.toNat).valid = true ∧
    (s.code.read y.toNat).len.toNat = (s.code.read y.toNat).bits.length

/-- The codes of the symbols from index `i` on, concatenated. -/
def codesFrom (s : State) (i n : Nat) : BitString :=
  (storedCodes s ((List.range' i n).map s.symbuf.read)).flatten

@[simp] theorem codesFrom_zero (s : State) (i : Nat) : codesFrom s i 0 = [] := rfl

theorem codesFrom_succ (s : State) (i n : Nat) :
    codesFrom s i (n + 1) = (s.code.read (s.symbuf.read i).toNat).bits ++ codesFrom s (i + 1) n := by
  simp [codesFrom, storedCodes, List.range'_succ]

/-- From index 0 the codes are those of the input symbols. -/
theorem codesFrom_inputSymbols (s : State) (n : Nat) :
    codesFrom s 0 n = (storedCodes s (inputSymbols s n)).flatten := by
  simp [codesFrom, inputSymbols, List.range_eq_range']

/-- The loop runs past `n` symbols that have codes, if these fit, and appends the codes. -/
theorem encodeLoop_append (s : State) (n left i : Nat) (stream : BitString)
    (hc : ∀ k < n, HasCode s (s.symbuf.read (i + k)))
    (hf : stream.length + (codesFrom s i n).length ≤ s.cfg.bitcap) :
    encodeLoop s (n + left) i stream = encodeLoop s left (i + n) (stream ++ codesFrom s i n) := by
  induction n generalizing i stream with
  | zero => simp
  | succ n ih =>
    obtain ⟨hv, hl⟩ := hc 0 (by omega)
    rw [codesFrom_succ, List.length_append] at hf
    simp only [Nat.add_zero] at hv hl
    rw [Nat.add_right_comm, encodeLoop]
    simp only [hv, hl, Bool.true_eq_false, if_false]
    rw [if_neg (by omega), ih (i + 1) _ (fun k hk => by simpa [Nat.add_assoc, Nat.add_comm 1] using hc (k + 1) (by omega))
      (by rw [List.length_append]; omega), codesFrom_succ, List.append_assoc]
    congr 1
    omega

/-- The loop stops at a symbol without a code (R190). -/
theorem encodeLoop_noCode (s : State) (left i : Nat) (stream : BitString)
    (h : (s.code.read (s.symbuf.read i).toNat).valid = false) :
    encodeLoop s (left + 1) i stream =
      ⟨stream, .fail .symbolNotInTable (BitVec.ofNat 32 i) ((s.symbuf.read i).zeroExtend 32)⟩ := by
  simp only [encodeLoop, h, if_true]

/-- The loop stops at a code that does not fit (R190). -/
theorem encodeLoop_overflow (s : State) (left i : Nat) (stream : BitString)
    (h : (s.code.read (s.symbuf.read i).toNat).valid = true)
    (hf : s.cfg.bitcap < stream.length + (s.code.read (s.symbuf.read i).toNat).len.toNat) :
    encodeLoop s (left + 1) i stream =
      ⟨stream, .fail .bitBufOverflow (BitVec.ofNat 32 i) (BitVec.ofNat 32 stream.length)⟩ := by
  simp only [encodeLoop, h, Bool.true_eq_false, if_false, hf, if_true]

end Sys2Proof.Machine
end

