-- ==== Sys2Proof/Laws/PerInstr.lean ====
section
/-! SUPPORT. Facts about every instruction as a term, one lemma for each constructor. -/

namespace Sys2Proof.Laws

/-- The word of an instruction carries the opcode of its row (R103). -/
def OpcodeOfEncoding.Statement (i : Instr) : Prop :=
  ∃ r ∈ opcodeTable, r.mnemonic = i.mnemonic ∧ opField (encode i) = opField r.pattern

theorem OpcodeOfEncoding.nop : OpcodeOfEncoding.Statement .nop :=
  ⟨⟨"NOP", 0x00000000#32, 0xFFFFFFFF#32⟩, by simp [opcodeTable], rfl, by decide⟩

theorem OpcodeOfEncoding.clrfreq : OpcodeOfEncoding.Statement .clrfreq :=
  ⟨⟨"CLRFREQ", 0x00000001#32, 0xFFFFFFFF#32⟩, by simp [opcodeTable], rfl, by decide⟩

theorem OpcodeOfEncoding.build : OpcodeOfEncoding.Statement .build :=
  ⟨⟨"BUILD", 0x00000002#32, 0xFFFFFFFF#32⟩, by simp [opcodeTable], rfl, by decide⟩

theorem OpcodeOfEncoding.gencodes : OpcodeOfEncoding.Statement .gencodes :=
  ⟨⟨"GENCODES", 0x00000003#32, 0xFFFFFFFF#32⟩, by simp [opcodeTable], rfl, by decide⟩

theorem OpcodeOfEncoding.encode (n : Nat) : OpcodeOfEncoding.Statement (.encode n) :=
  ⟨⟨"ENCODE", 0x00000004#32, 0x000000FF#32⟩, by simp [opcodeTable], rfl,
    by rw [Sys2Proof.encode, opField_commandWord]; decide⟩

theorem OpcodeOfEncoding.decode (l : Nat) : OpcodeOfEncoding.Statement (.decode l) :=
  ⟨⟨"DECODE", 0x00000005#32, 0x000000FF#32⟩, by simp [opcodeTable], rfl,
    by rw [Sys2Proof.encode, opField_commandWord]; decide⟩

end Sys2Proof.Laws
end

