-- ==== Sys2Proof/Laws/Shapes.lean ====
section
/-! SUPPORT. Every operation on a memory keeps its number of entries, which is its canonical form. -/

namespace Sys2Proof.Machine

/-- The parts of a well-formed memory state. -/
theorem State.memoryWf_iff (s : State) :
    s.memoryWf = true ↔ s.cfg.wf = true ∧ s.freq.length = 256 ∧ s.node.length = 511 ∧ s.code.length = 256 ∧
      s.symbuf.length = s.cfg.symbufDepth ∧ s.bitbuf.length = s.cfg.bitbufWords := by
  simp [State.memoryWf, numSymbols, nodeMax, and_assoc]

/-- The bounds of R6. -/
theorem Config.wf_iff (c : Config) :
    c.wf = true ↔ 1 ≤ c.symbufDepth ∧ c.symbufDepth ≤ 4096 ∧ 1 ≤ c.bitbufWords ∧ c.bitbufWords ≤ 4096 := by
  simp [Config.wf, and_assoc]

/-- The reset state's memories are well formed. -/
theorem State.reset_memoryWf : State.reset.memoryWf = true := by
  rw [State.memoryWf_iff]
  refine ⟨by decide, ?_, ?_, ?_, ?_, ?_⟩ <;> exact Memory.length_tabulate _ _

@[simp] theorem length_clearedFreq : clearedFreq.length = 256 := by
  simp only [clearedFreq, numSymbols, List.length_replicate]

@[simp] theorem length_writeLeaves (freq : Memory Word) (syms : List Nat) (i : Nat) (node : Memory Node) :
    (writeLeaves freq syms i node).length = node.length := by
  induction syms generalizing i node with
  | nil => rfl
  | cons y syms ih => simp [writeLeaves, ih]

theorem length_mergeOnce {node node' : Memory Node} {ids ids' : List Nat} {next : Nat}
    (h : mergeOnce node ids next = some (node', ids')) : node'.length = node.length := by
  unfold mergeOnce at h
  split at h
  · cases h
  split at h
  · cases h
  · cases h
    simp

@[simp] theorem length_mergeAll (rounds : Nat) (node : Memory Node) (ids : List Nat) (next : Nat) :
    (mergeAll rounds node ids next).node.length = node.length := by
  induction rounds generalizing node ids next with
  | zero => rfl
  | succ rounds ih =>
    rw [mergeAll]
    split
    · rfl
    · next h => rw [ih, length_mergeOnce h]

@[simp] theorem length_buildTree (freq : Memory Word) (node : Memory Node) :
    (buildTree freq node).node.length = node.length := by simp [buildTree]

@[simp] theorem length_clearedCodes (code : Memory CodeEntry) : (clearedCodes code).length = code.length := by
  simp [clearedCodes]

@[simp] theorem length_recordCode (y : Byte) (p : BitString) (code : Memory CodeEntry) :
    (recordCode y p code).length = code.length := by simp [recordCode]

@[simp] theorem length_walk (node : Memory Node) (levels : Nat) (x : NodeId) (p : BitString)
    (code : Memory CodeEntry) : (walk node levels x p code).length = code.length := by
  induction levels generalizing x p code with
  | zero => rfl
  | succ levels ih =>
    rw [walk]
    split
    · simp
    · simp [ih]

@[simp] theorem length_generateCodes (node : Memory Node) (root : NodeId) (code : Memory CodeEntry) :
    (generateCodes node root code).length = code.length := by
  unfold generateCodes
  split <;> simp

/-- An emission keeps the buffer's size. -/
theorem length_emit {depth : Nat} {y : Byte} {k : Nat} {c c' : Cursor} (h : emit depth y k c = .ok c') :
    c'.symbuf.length = c.symbuf.length := by
  unfold emit at h
  split at h
  · cases h
  · cases h
    simp

theorem length_decodeBit {s : State} {k : Nat} {c c' : Cursor} (h : decodeBit s k c = .ok c') :
    c'.symbuf.length = c.symbuf.length := by
  unfold decodeBit at h
  split at h
  · unfold decodeLeafBit at h
    split at h
    · cases h
    · exact length_emit h
  · simp only [decodeTreeBit] at h
    split at h
    · exact (length_emit h).trans rfl
    · cases h
      rfl

@[simp] theorem length_decodeLoop (s : State) (left k : Nat) (c : Cursor) :
    (decodeLoop s left k c).1.symbuf.length = c.symbuf.length := by
  induction left generalizing k c with
  | zero =>
    rw [decodeLoop]
    split <;> rfl
  | succ left ih =>
    rw [decodeLoop]
    split
    · rfl
    · next h => rw [ih, length_decodeBit h]

end Sys2Proof.Machine
end

