-- ==== Sys2Proof/Laws/Reset.lean ====
section
/-! SUPPORT. What the two resets leave (70_reset_and_hazards.md R260 to R264), field by field. -/

namespace Sys2Proof.Machine

variable (f : Option Access) (s : State)

/-! ## Soft reset -/

@[simp] theorem softReset_busy : (softReset s).busy = false := rfl
@[simp] theorem softReset_done : (softReset s).done = false := rfl
@[simp] theorem softReset_err : (softReset s).err = false := rfl
@[simp] theorem softReset_ovr : (softReset s).ovr = false := rfl
@[simp] theorem softReset_codesValid : (softReset s).codesValid = false := rfl
@[simp] theorem softReset_doneIe : (softReset s).doneIe = false := rfl
@[simp] theorem softReset_errIe : (softReset s).errIe = false := rfl
@[simp] theorem softReset_ovrIe : (softReset s).ovrIe = false := rfl
@[simp] theorem softReset_errCode : (softReset s).errCode = 0#4 := rfl
@[simp] theorem softReset_errInfo0 : (softReset s).errInfo0 = 0#32 := rfl
@[simp] theorem softReset_errInfo1 : (softReset s).errInfo1 = 0#32 := rfl
@[simp] theorem softReset_nodeCount : (softReset s).nodeCount = 0#10 := rfl
@[simp] theorem softReset_root : (softReset s).root = 0#9 := rfl
@[simp] theorem softReset_encBitLen : (softReset s).encBitLen = 0#32 := rfl
@[simp] theorem softReset_decSymCount : (softReset s).decSymCount = 0#32 := rfl

/-- Abandoning a command changes the memories only. -/
theorem abandon_frame : ∃ (m : Memory Word) (n : Memory Node) (c : Memory CodeEntry) (y : Memory Byte)
    (b : Memory Word), abandon s = { s with freq := m, node := n, code := c, symbuf := y, bitbuf := b } := by
  unfold abandon
  cases decodeWord s.pending with
  | error r => exact ⟨_, _, _, _, _, rfl⟩
  | ok i => cases i <;> exact ⟨_, _, _, _, _, rfl⟩

@[simp] theorem abandon_cfg : (abandon s).cfg = s.cfg := by
  obtain ⟨_, _, _, _, _, h⟩ := abandon_frame s
  rw [h]

@[simp] theorem abandon_inputs : (abandon s).inputs = s.inputs := by
  obtain ⟨_, _, _, _, _, h⟩ := abandon_frame s
  rw [h]

@[simp] theorem abandon_resp : (abandon s).resp = s.resp := by
  obtain ⟨_, _, _, _, _, h⟩ := abandon_frame s
  rw [h]

@[simp] theorem softReset_cfg : (softReset s).cfg = s.cfg := by
  unfold softReset
  split <;> simp

@[simp] theorem softReset_inputs : (softReset s).inputs = s.inputs := by
  unfold softReset
  split <;> simp

@[simp] theorem softReset_resp : (softReset s).resp = s.resp := by
  unfold softReset
  split <;> simp

/-- Abandoning a command keeps the memories' shapes. -/
theorem abandon_memoryWf (h : s.memoryWf = true) : (abandon s).memoryWf = true := by
  rw [State.memoryWf_iff] at h ⊢
  obtain ⟨h₁, h₂, h₃, h₄, h₅, h₆⟩ := h
  unfold abandon
  cases decodeWord s.pending with
  | error r => exact ⟨h₁, h₂, h₃, h₄, h₅, h₆⟩
  | ok i =>
    cases i with
    | nop => exact ⟨h₁, h₂, h₃, h₄, h₅, h₆⟩
    | clrfreq => exact ⟨h₁, Memory.length_tabulate _ _, h₃, h₄, h₅, h₆⟩
    | build => exact ⟨h₁, h₂, Memory.length_tabulate _ _, h₄, h₅, h₆⟩
    | gencodes => exact ⟨h₁, h₂, h₃, Memory.length_tabulate _ _, h₅, h₆⟩
    | encode n => exact ⟨h₁, h₂, h₃, h₄, h₅, Memory.length_tabulate _ _⟩
    | decode l => exact ⟨h₁, h₂, h₃, h₄, Memory.length_tabulate _ _, h₆⟩

/-- A soft reset keeps the memories' shapes. -/
theorem softReset_memoryWf (h : s.memoryWf = true) : (softReset s).memoryWf = true := by
  unfold softReset
  split
  · exact abandon_memoryWf s h
  · exact h

/-! ## Hardware reset -/

@[simp] theorem drawFreq_cfg : (drawFreq s).cfg = s.cfg := rfl
@[simp] theorem drawFreq_draws : (drawFreq s).draws = s.draws := rfl
@[simp] theorem drawFreq_inputs : (drawFreq s).inputs = s.inputs := rfl
@[simp] theorem drawFreq_node : (drawFreq s).node = s.node := rfl
@[simp] theorem drawFreq_code : (drawFreq s).code = s.code := rfl
@[simp] theorem drawFreq_symbuf : (drawFreq s).symbuf = s.symbuf := rfl
@[simp] theorem drawFreq_bitbuf : (drawFreq s).bitbuf = s.bitbuf := rfl
@[simp] theorem length_drawFreq : (drawFreq s).freq.length = numSymbols := Memory.length_tabulate _ _
@[simp] theorem drawNode_cfg : (drawNode s).cfg = s.cfg := rfl
@[simp] theorem drawNode_draws : (drawNode s).draws = s.draws := rfl
@[simp] theorem drawNode_inputs : (drawNode s).inputs = s.inputs := rfl
@[simp] theorem drawNode_freq : (drawNode s).freq = s.freq := rfl
@[simp] theorem drawNode_code : (drawNode s).code = s.code := rfl
@[simp] theorem drawNode_symbuf : (drawNode s).symbuf = s.symbuf := rfl
@[simp] theorem drawNode_bitbuf : (drawNode s).bitbuf = s.bitbuf := rfl
@[simp] theorem length_drawNode : (drawNode s).node.length = nodeMax := Memory.length_tabulate _ _
@[simp] theorem drawCode_cfg : (drawCode s).cfg = s.cfg := rfl
@[simp] theorem drawCode_draws : (drawCode s).draws = s.draws := rfl
@[simp] theorem drawCode_inputs : (drawCode s).inputs = s.inputs := rfl
@[simp] theorem drawCode_freq : (drawCode s).freq = s.freq := rfl
@[simp] theorem drawCode_node : (drawCode s).node = s.node := rfl
@[simp] theorem drawCode_symbuf : (drawCode s).symbuf = s.symbuf := rfl
@[simp] theorem drawCode_bitbuf : (drawCode s).bitbuf = s.bitbuf := rfl
@[simp] theorem length_drawCode : (drawCode s).code.length = numSymbols := Memory.length_tabulate _ _
@[simp] theorem drawSymbuf_cfg : (drawSymbuf s).cfg = s.cfg := rfl
@[simp] theorem drawSymbuf_draws : (drawSymbuf s).draws = s.draws := rfl
@[simp] theorem drawSymbuf_inputs : (drawSymbuf s).inputs = s.inputs := rfl
@[simp] theorem drawSymbuf_freq : (drawSymbuf s).freq = s.freq := rfl
@[simp] theorem drawSymbuf_node : (drawSymbuf s).node = s.node := rfl
@[simp] theorem drawSymbuf_code : (drawSymbuf s).code = s.code := rfl
@[simp] theorem drawSymbuf_bitbuf : (drawSymbuf s).bitbuf = s.bitbuf := rfl
@[simp] theorem length_drawSymbuf : (drawSymbuf s).symbuf.length = s.cfg.symbufDepth := Memory.length_tabulate _ _
@[simp] theorem drawBitbuf_cfg : (drawBitbuf s).cfg = s.cfg := rfl
@[simp] theorem drawBitbuf_draws : (drawBitbuf s).draws = s.draws := rfl
@[simp] theorem drawBitbuf_inputs : (drawBitbuf s).inputs = s.inputs := rfl
@[simp] theorem drawBitbuf_freq : (drawBitbuf s).freq = s.freq := rfl
@[simp] theorem drawBitbuf_node : (drawBitbuf s).node = s.node := rfl
@[simp] theorem drawBitbuf_code : (drawBitbuf s).code = s.code := rfl
@[simp] theorem drawBitbuf_symbuf : (drawBitbuf s).symbuf = s.symbuf := rfl
@[simp] theorem length_drawBitbuf : (drawBitbuf s).bitbuf.length = s.cfg.bitbufWords := Memory.length_tabulate _ _
@[simp] theorem hardwareReset_busy : (hardwareReset f s).busy = false := rfl
@[simp] theorem hardwareReset_done : (hardwareReset f s).done = false := rfl
@[simp] theorem hardwareReset_err : (hardwareReset f s).err = false := rfl
@[simp] theorem hardwareReset_ovr : (hardwareReset f s).ovr = false := rfl
@[simp] theorem hardwareReset_codesValid : (hardwareReset f s).codesValid = false := rfl
@[simp] theorem hardwareReset_doneIe : (hardwareReset f s).doneIe = false := rfl
@[simp] theorem hardwareReset_errIe : (hardwareReset f s).errIe = false := rfl
@[simp] theorem hardwareReset_ovrIe : (hardwareReset f s).ovrIe = false := rfl
@[simp] theorem hardwareReset_errCode : (hardwareReset f s).errCode = 0#4 := rfl
@[simp] theorem hardwareReset_errInfo0 : (hardwareReset f s).errInfo0 = 0#32 := rfl
@[simp] theorem hardwareReset_errInfo1 : (hardwareReset f s).errInfo1 = 0#32 := rfl
@[simp] theorem hardwareReset_nodeCount : (hardwareReset f s).nodeCount = 0#10 := rfl
@[simp] theorem hardwareReset_root : (hardwareReset f s).root = 0#9 := rfl
@[simp] theorem hardwareReset_encBitLen : (hardwareReset f s).encBitLen = 0#32 := rfl
@[simp] theorem hardwareReset_decSymCount : (hardwareReset f s).decSymCount = 0#32 := rfl
@[simp] theorem hardwareReset_cfg : (hardwareReset f s).cfg = s.cfg := by simp [hardwareReset]
@[simp] theorem hardwareReset_inputs : (hardwareReset f s).inputs = s.inputs := by simp [hardwareReset]

/-- A hardware reset keeps the memories' shapes. -/
theorem hardwareReset_memoryWf (h : s.memoryWf = true) : (hardwareReset f s).memoryWf = true := by
  rw [State.memoryWf_iff] at h ⊢
  simp [hardwareReset, h.1, numSymbols, nodeMax]

end Sys2Proof.Machine
end

