-- ==== Sys2Proof/Tests/Slice0.lean ====
section
/-! SUPPORT. Tests with values from the spec (the rule or the row of 95_test_vectors.md stands with each), and for
every obligation with hypotheses a witness that meets them together. -/

namespace Sys2Proof.Machine.Tests

open Sys2Proof Sys2Proof.Machine

-- One theorem after the other: a thread for each pending kernel evaluation would fill the memory limit.
set_option Elab.async false

/-! ## Ill-formed terms are refused -/

theorem test_wf_encode_argument_too_wide : Instr.wf (.encode 0x1000000) = false := by decide
theorem test_wf_decode_argument_too_wide : Instr.wf (.decode 0x1000000) = false := by decide
theorem test_wf_largest_arguments : (Instr.wf (.encode 0xFFFFFF) && Instr.wf (.decode 0xFFFFFF)) = true := by decide
theorem test_wf_no_symbol_buffer : Config.wf ⟨0, 1⟩ = false := by decide
theorem test_wf_symbol_buffer_too_deep : Config.wf ⟨4097, 1⟩ = false := by decide
theorem test_wf_no_bit_buffer : Config.wf ⟨1, 0⟩ = false := by decide
theorem test_wf_bit_buffer_too_long : Config.wf ⟨1, 4097⟩ = false := by decide
theorem test_wf_smallest_and_largest : (Config.wf ⟨1, 1⟩ && Config.wf ⟨4096, 4096⟩) = true := by decide

/-! ## Decoding, the words written out from R101 and R103: ARG in bits 31 to 8, OP in bits 7 to 0 -/

theorem test_decode_nop : decodeWord 0b00000000000000000000000000000000#32 = .ok .nop := by decide
theorem test_decode_clrfreq : decodeWord 0b00000000000000000000000000000001#32 = .ok .clrfreq := by decide
theorem test_decode_build : decodeWord 0b00000000000000000000000000000010#32 = .ok .build := by decide
theorem test_decode_gencodes : decodeWord 0b00000000000000000000000000000011#32 = .ok .gencodes := by decide
theorem test_decode_encode : decodeWord 0b00000000000000000000011000000100#32 = .ok (.encode 6) := by decide
theorem test_decode_decode : decodeWord 0b00000010000000000000000000000101#32 = .ok (.decode 131072) := by decide
/-- 95_test_vectors.md L2.7 row 6: the largest argument is not sign-extended. -/
theorem test_decode_largest_argument : decodeWord 0xFFFFFF05#32 = .ok (.decode 16777215) := by decide
/-- L2.7 rows 1 to 4. -/
theorem test_decode_rejects :
    decodeWord 0x00000102#32 = .error (.argumentNotZero 0x02#8) ∧
    decodeWord 0x00000006#32 = .error (.reservedOpcode 0x06#8) ∧
    decodeWord 0xFFFFFFFF#32 = .error (.reservedOpcode 0xFF#8) ∧
    decodeWord 0x00000100#32 = .error (.argumentNotZero 0x00#8) := by decide
/-- R103: two rows whose patterns agree under both masks are one row. -/
theorem test_opcode_rows_disjoint :
    opcodeTable.Pairwise (fun a b => a.pattern &&& (a.mask &&& b.mask) ≠ b.pattern &&& (a.mask &&& b.mask)) := by
  decide
/-- The rows are numbered as opcode_table.json numbers them; a row shorter than the word has zeros above. -/
theorem test_decodeTableWord :
    decodeTableWord 32 0x00000604 = some (.encode 6) ∧ decodeTableWord 8 0x105 = some (.decode 0) ∧
    decodeTableWord 32 0x00000102 = none ∧ decodeTableWord 40 0x02 = none := by decide

/-! ## Small states -/

/-- The value of a field after a step that goes on. -/
def seen {α : Type} (f : State → α) (o : Host.Outcome State Fault Refusal) : Option α :=
  match o with
  | .next t => some (f t)
  | .fault _ => none
  | .refused _ => none

/-- The state after a step that goes on. -/
def after (s : State) (o : Host.Outcome State Fault Refusal) : State := (seen id o).getD s

/-- A step that goes on ends in the state after it. -/
theorem goes_on {s : State} {o : Host.Outcome State Fault Refusal} (h : seen (fun _ => true) o = some true) :
    o = .next (after s o) := by
  cases o with
  | next t => rfl
  | fault r => cases h
  | refused r => cases h

/-- An idle HCB with eight symbols and two words of buffer, all memories 0, no tree, no codes. -/
def blank : State :=
  { State.reset with
    cfg := ⟨8, 2⟩
    pending := 0#32
    freq := List.replicate 256 0#32
    node := List.replicate 511 (.leaf 0#32 0#8)
    code := List.replicate 256 ⟨false, 0#8, []⟩
    symbuf := List.replicate 8 0#8
    bitbuf := List.replicate 2 0#32 }

theorem blank_cfg : blank.cfg = ⟨8, 2⟩ := rfl
theorem blank_busy : blank.busy = false := rfl

/-- `blank` with counts. -/
def counts (fs : List (Nat × Word)) : State :=
  { blank with freq := fs.foldl (fun m f => m.write f.1 f.2) blank.freq }

/-- The tree of L2.3 row 5: x, y, z = 0x78, 0x79, 0x7A with counts 2, 1, 1. -/
def xyzTree : State :=
  { counts [(0x78, 2#32), (0x79, 1#32), (0x7A, 1#32)] with
    node := [.leaf 2#32 0x78#8, .leaf 1#32 0x79#8, .leaf 1#32 0x7A#8, .internal 2#32 1#9 2#9,
      .internal 4#32 0#9 3#9] ++ List.replicate 506 (.leaf 0#32 0#8)
    nodeCount := 5#10
    root := 4#9 }

/-- The codes of that tree, "0", "10", "11" (44_decoder.md R217). -/
def xyz : State :=
  { xyzTree with
    code := ((xyzTree.code.write 0x78 ⟨true, 1#8, [false]⟩).write 0x79 ⟨true, 2#8, [true, false]⟩).write 0x7A
      ⟨true, 2#8, [true, true]⟩
    codesValid := true }

/-- `xyz` with the symbols x y z x in SYMBUF. -/
def xyzInput : State := { xyz with symbuf := [0x78#8, 0x79#8, 0x7A#8, 0x78#8, 0#8, 0#8, 0#8, 0#8] }

/-- The one-symbol tree of R160. -/
def single : State :=
  { counts [(0x61, 3#32)] with
    node := .leaf 3#32 0x61#8 :: List.replicate 510 (.leaf 0#32 0#8)
    nodeCount := 1#10
    root := 0#9 }

/-- The word is pending, and the engine moves next. -/
def running (w : Word) (s : State) : State := { s with pending := w, busy := true, inputs := [.engine] }

/-- The state with these stream words. -/
def stream (ws : List Word) (s : State) : State := { s with bitbuf := ws }

/-! ## One step of each instruction -/

/-- L2.1 rows 1 and 2. -/
theorem test_nop : seen (fun t => (statusWord t, irq t)) (exec .nop { blank with busy := true, doneIe := true }) =
    some (0x00000002#32, true) := by decide +kernel
/-- L2.2 row 1, with the tree kept (R126). -/
theorem test_clrfreq : seen (fun t => (t.freq.read 0x78, t.freq.read 0xFF, t.nodeCount)) (exec .clrfreq xyz) =
    some (0#32, 0#32, 5#10) := by decide +kernel
/-- L2.3 row 4: a leaf and an internal node tie, and the lower id goes left. -/
theorem test_build_tie :
    seen (fun t => (t.node.read 3, t.node.read 4, t.nodeCount, t.root))
      (exec .build (counts [(0x41, 1#32), (0x42, 1#32), (0x43, 2#32)])) =
    some (.internal 2#32 0#9 1#9, .internal 4#32 2#9 3#9, 5#10, 4#9) := by decide +kernel
/-- L2.3 row 9: the sum does not fit. -/
theorem test_build_overflow :
    seen (fun t => (statusWord t, t.errCode, t.errInfo0, t.errInfo1))
      (exec .build (counts [(0, 0xFFFFFFFF#32), (1, 1#32)])) = some (0x04#32, 9#4, 0#32, 1#32) := by decide +kernel
/-- The codes of the x, y, z tree (44_decoder.md R217). -/
theorem test_gencodes :
    seen (fun t => (t.code.read 0x78, t.code.read 0x79, t.code.read 0x7A, (t.code.read 0x77).valid))
      (exec .gencodes xyzTree) =
    some (⟨true, 1#8, [false]⟩, ⟨true, 2#8, [true, false]⟩, ⟨true, 2#8, [true, true]⟩, false) := by decide +kernel
/-- L2.4 row 6: the one-symbol code. -/
theorem test_gencodes_single :
    seen (fun t => t.code.read 0x61) (exec .gencodes single) = some ⟨true, 1#8, [false]⟩ := by decide +kernel
/-- L2.5 row 13. -/
theorem test_encode : seen (fun t => (t.encBitLen, t.bitbuf)) (exec (.encode 4) xyzInput) =
    some (6#32, [0x58000000#32, 0#32]) := by decide +kernel
/-- L2.5 row 7's case: the third symbol has no code, and no complete word was produced. -/
theorem test_encode_symbol_not_in_table :
    seen (fun t => (t.errCode, t.errInfo0, t.errInfo1, t.bitbuf))
      (exec (.encode 5) { xyzInput with bitbuf := [0x12345678#32, 0x9ABCDEF0#32] }) =
    some (2#4, 4#32, 0#32, [0x12345678#32, 0x9ABCDEF0#32]) := by decide +kernel
/-- L2.6 row 9. -/
theorem test_decode_stream : seen (fun t => (t.decSymCount, t.symbuf.take 3))
    (exec (.decode 4) (stream [0xB0000000#32, 0#32] xyz)) = some (2#32, [0x79#8, 0x7A#8, 0#8]) := by decide +kernel
/-- L2.6 row 8. -/
theorem test_decode_truncated :
    seen (fun t => (t.errCode, t.errInfo0, t.errInfo1, t.decSymCount, t.symbuf.take 2))
      (exec (.decode 2) (stream [0x40000000#32, 0#32] xyz)) =
    some (3#4, 1#32, 1#32, 0#32, [0x78#8, 0#8]) := by decide +kernel
/-- L2.7 row 1: an illegal word completes with IllegalCommand and keeps the tree. -/
theorem test_illegal_word : seen (fun t => (t.errCode, t.errInfo0, statusWord t)) (step (running 0x102#32 xyz)) =
    some (6#4, 0x102#32, 0x34#32) := by decide +kernel
/-- The placed word runs as the next step (R123): DECODE 16777215 fails with BadArgument (L2.7 row 6). -/
theorem test_withFetchWord :
    seen (fun t => (t.errCode, t.errInfo0, t.errInfo1)) (step (blank.withFetchWord 32 0xFFFFFF05)) =
    some (10#4, 0x00FFFFFF#32, 64#32) := by decide +kernel

/-! ## The host port -/

/-- The examples of R70: node words of a leaf and of an internal node. -/
theorem test_node_words :
    nodeWord (.leaf 5#32 0x61#8) 1 = 0x80000061#32 ∧ nodeWord (.internal 55#32 7#9 8#9) 1 = 0x00080007#32 := by
  decide
/-- The example of R71: the code "1100". -/
theorem test_code_words :
    codeWord ⟨true, 4#8, [true, true, false, false]⟩ 0 = 0x80000004#32 ∧
    codeWord ⟨true, 4#8, [true, true, false, false]⟩ 1 = 0xC0000000#32 := by decide
/-- The example of R76: the stream "110011011001011110". -/
theorem test_stream_word :
    packWord [true, true, false, false, true, true, false, true, true, false, false, true, false, true, true, true,
      true, false] 0 = 0xCD978000#32 := by decide
/-- The example of R69: offset 0x0584 is FREQ[0x61]. -/
theorem test_freq_offset : resolve Config.reference 0x0584#16 = some (.freq 0x61) := by decide
/-- R25 in the reference configuration. -/
theorem test_config_word : readCsr .config State.reset = 0x10001000#32 := by decide +kernel
/-- L2.8 row 11: a CMD write while busy. -/
theorem test_overrun :
    seen statusWord (step { running 0#32 xyz with inputs := [writeEvent 0x000C#16 0x2#32] }) = some 0x39#32 := by
  decide +kernel
/-- L2.8 rows 1 and 4. -/
theorem test_bus_errors :
    seen (fun t => t.resp) (step (blank.withInputs [readEvent 0x0034#16])) = some (some ⟨0#32, true⟩) ∧
    seen (fun t => t.resp) (step (blank.withInputs [.access ⟨false, 0#16, 0#2, 0#32⟩])) =
      some (some ⟨0#32, true⟩) := by decide +kernel
/-- L2.9 row 2: a soft reset drops the tree and the codes and keeps FREQ. -/
theorem test_soft_reset :
    seen (fun t => (statusWord t, t.nodeCount, t.freq.read 0x78))
      (step (xyz.withInputs [writeEvent 0x0008#16 0x1#32])) = some (0#32, 0#10, 2#32) := by decide +kernel
/-- R108: the pseudo-operations, and the argument that an assembler refuses. -/
theorem test_script :
    (PseudoOp.encode 6).expand = some (.write 0x000C#16 0x00000604#32) ∧
    PseudoOp.ack.expand = some (.write 0x0010#16 0x0000000E#32) ∧
    PseudoOp.srst.expand = some (.write 0x0008#16 0x00000001#32) ∧
    (PseudoOp.decode 0x1000000).expand = none := by decide

/-- R78, R124: the completion may come before the line that follows the command, or in its WAIT. -/
theorem test_script_schedules :
    scheduledEvents [(false, .write 0x000C#16 0x0#32), (true, .read 0x0010#16)] =
      [writeEvent 0x000C#16 0x0#32, .engine, readEvent 0x0010#16] ∧
    scriptEvents [.write 0x000C#16 0x0#32, .read 0x0010#16, .wait 0] =
      [writeEvent 0x000C#16 0x0#32, readEvent 0x0010#16, .engine, readEvent 0x0010#16] := by decide

/-! ## Witnesses: encoding -/

theorem witness_EncodeThenDecodeGivesInstruction :
    Instr.wf .nop = true ∧ Instr.wf (.encode 0) = true ∧ Instr.wf (.decode 0xFFFFFF) = true := by decide
theorem witness_DecodedWordIsItsEncoding :
    decodeWord 0#32 = .ok .nop ∧ decodeWord 0xFFFFFF04#32 = .ok (.encode 0xFFFFFF) := by decide
theorem witness_OpcodeTableMatchesDecoder :
    decodeWord 0xFFFFFF05#32 = .ok (.decode 0xFFFFFF) ∧
    ∃ r ∈ opcodeTable, r.covers 0xFFFFFF05#32 = true ∧ r.mnemonic = "DECODE" :=
  ⟨by decide, ⟨"DECODE", 0x00000005#32, 0x000000FF#32⟩, by decide, by decide, rfl⟩

/-! ## Witnesses: the host port -/

theorem witness_WrongSizeRaisesBusError :
    (⟨false, 0#16, 0#2, 0#32⟩ : Access).size ≠ 2#2 ∧ (⟨true, 0xFFFF#16, 3#2, 0#32⟩ : Access).size ≠ 2#2 := by decide
theorem witness_MisalignedAccessRaisesBusError :
    (⟨false, 1#16, 2#2, 0#32⟩ : Access).addr.toNat % 4 ≠ 0 ∧
    (⟨true, 0xFFFF#16, 2#2, 0#32⟩ : Access).addr.toNat % 4 ≠ 0 := by decide
/-- An aligned access to an offset. -/
def aligned (off : Offset) : Access := ⟨false, off, 2#2, 0#32⟩
theorem witness_UnmappedAccessRaisesBusError :
    (∀ off ∈ [0x0034#16, 0x03FC#16, 0x0800#16, 0x0FFC#16, 0x2000#16, 0x3FFC#16, 0x8020#16, 0xBFFC#16, 0xC008#16,
      0xFFFC#16], (aligned off).size = 2#2 ∧ (aligned off).addr.toNat % 4 = 0) ∧
    0x0034 ≤ (aligned 0x0034#16).addr.toNat ∧ (aligned 0x03FC#16).addr.toNat ≤ 0x03FF ∧
    0x0800 ≤ (aligned 0x0800#16).addr.toNat ∧ (aligned 0x0FFC#16).addr.toNat ≤ 0x0FFF ∧
    0x2000 ≤ (aligned 0x2000#16).addr.toNat ∧ (aligned 0x3FFC#16).addr.toNat ≤ 0x3FFF ∧
    blank.cfg.symbufDepth ≤ ((aligned 0x8020#16).addr.toNat - 0x8000) / 4 ∧
    (aligned 0xBFFC#16).addr.toNat ≤ 0xBFFF ∧
    0xC000 ≤ (aligned 0xC008#16).addr.toNat ∧
    blank.cfg.bitbufWords ≤ ((aligned 0xC008#16).addr.toNat - 0xC000) / 4 := by
  simp [aligned, blank_cfg]
theorem witness_BusyLocksMemoryRegions :
    (running 0#32 blank).busy = true ∧
    (∀ off ∈ [0x0400#16, 0x07FC#16], 0x0400 ≤ (aligned off).addr.toNat ∧ (aligned off).addr.toNat ≤ 0x07FF) ∧
    (∀ off ∈ [0x1000#16, 0x1FFC#16], 0x1000 ≤ (aligned off).addr.toNat ∧ (aligned off).addr.toNat ≤ 0x1FFF) ∧
    (∀ off ∈ [0x4000#16, 0xFFFC#16], 0x4000 ≤ (aligned off).addr.toNat) ∧
    (∀ off ∈ [0x0000#16, 0x0030#16], (aligned off).size = 2#2 ∧ (aligned off).addr.toNat % 4 = 0 ∧
      (aligned off).addr.toNat ≤ 0x0030) := by simp [aligned, running]
theorem witness_PassedChecksPerformAccess :
    (aligned 0x0030#16).size = 2#2 ∧ (aligned 0x0030#16).addr.toNat % 4 = 0 ∧
    resolve blank.cfg (aligned 0x0030#16).addr = some (.csr .decSymcount) ∧
    (Target.csr .decSymcount).isMemory = false ∧
    resolve blank.cfg (aligned 0xC004#16).addr = some (.bitbuf 1) ∧ blank.busy = false := by decide
theorem witness_AddressMapInvertsOffsets :
    blank.cfg.wf = true ∧ (∀ t ∈ [Target.csr .id, .csr .decSymcount, .freq 255, .node 511 1, .code 255 15, .symbuf 7,
      .bitbuf 1], t.mapped blank.cfg = true) := by decide
theorem witness_ReadHasNoSideEffect : (aligned 0x0010#16).write = false := by decide
theorem witness_WriteToReadOnlyIsNoOp :
    blank.busy = false ∧
    (∀ off ∈ [0x0000#16, 0x0004#16], BitVec.toNat off % 4 = 0 ∧ BitVec.toNat off ≤ 0x0004) ∧
    (∀ off ∈ [0x0018#16, 0x0030#16], BitVec.toNat off % 4 = 0 ∧ 0x0018 ≤ BitVec.toNat off ∧
      BitVec.toNat off ≤ 0x0030) ∧
    (∀ off ∈ [0x1000#16, 0x1FFC#16], BitVec.toNat off % 4 = 0 ∧ 0x1000 ≤ BitVec.toNat off ∧
      BitVec.toNat off ≤ 0x1FFF) ∧
    (∀ off ∈ [0x4000#16, 0x7FFC#16], BitVec.toNat off % 4 = 0 ∧ 0x4000 ≤ BitVec.toNat off ∧
      BitVec.toNat off ≤ 0x7FFF) := by simp [blank_busy]

/-- The small states have well-formed memories. -/
theorem blank_memoryWf : blank.memoryWf = true := by decide +kernel
theorem xyz_memoryWf : xyz.memoryWf = true := by decide +kernel
theorem xyzInput_memoryWf : xyzInput.memoryWf = true := by decide +kernel
theorem single_memoryWf : single.memoryWf = true := by decide +kernel

theorem witness_FreqWindowReadsAndWrites :
    blank.memoryWf = true ∧ blank.busy = false ∧ (0 : Nat) < 256 ∧ (255 : Nat) < 256 :=
  ⟨blank_memoryWf, rfl, by decide, by decide⟩
/-- A leaf (id 2), an internal node (id 4, the last valid one), the first invalid id (5) and the last (511). -/
theorem witness_NodeWindowReadsTree :
    xyz.busy = false ∧ xyz.nodeCount.toNat ≤ 5 ∧ xyz.nodeCount.toNat ≤ 511 ∧ (511 : Nat) < 512 ∧
    4 < xyz.nodeCount.toNat ∧ xyz.node.read 2 = .leaf 1#32 0x7A#8 ∧ xyz.node.read 4 = .internal 4#32 0#9 3#9 := by
  decide
theorem witness_CodeWindowReadsCodes :
    xyz.busy = false ∧ (255 : Nat) < 256 ∧ (15 : Nat) < 16 ∧ xyz.codesValid = true ∧
    (xyz.code.read 0x7A).valid = true ∧ (xyz.code.read 255).valid = false ∧ xyzTree.codesValid = false := by
  decide +kernel
theorem witness_SymbufWindowReadsAndWrites :
    blank.memoryWf = true ∧ blank.busy = false ∧ 0 < blank.cfg.symbufDepth ∧ 7 < blank.cfg.symbufDepth ∧
    blank.cfg.symbufDepth ≤ 8 ∧ blank.cfg.symbufDepth ≤ 4095 :=
  ⟨blank_memoryWf, rfl, by decide, by decide, by decide, by decide⟩
theorem witness_BitbufWindowReadsAndWrites :
    blank.memoryWf = true ∧ blank.busy = false ∧ 0 < blank.cfg.bitbufWords ∧ 1 < blank.cfg.bitbufWords ∧
    blank.cfg.bitbufWords ≤ 2 ∧ blank.cfg.bitbufWords ≤ 4095 :=
  ⟨blank_memoryWf, rfl, by decide, by decide, by decide, by decide⟩
theorem witness_RegistersReadTheirFields : blank.cfg.wf = true ∧ State.reset.cfg.wf = true := by decide

/-! ## Witnesses: command issue and completion -/

theorem witness_AcceptanceAppliesStartEffects :
    blank.busy = false ∧ BitVec.extractLsb' 0 8 0xFFFFFF04#32 = 0x04#8 ∧
    BitVec.extractLsb' 0 8 0x00000005#32 = 0x05#8 ∧ legal 0x00000102#32 = false ∧ legal 0x00000006#32 = false := by
  decide
theorem witness_OverrunSetsOvrOnly : (running 0#32 xyz).busy = true := by decide
theorem witness_StepRunsPendingCommand :
    (running 0x00000604#32 xyz).busy = true ∧ decodeWord (running 0x00000604#32 xyz).pending = .ok (.encode 6) := by
  decide
theorem witness_IllegalWordCompletesWithError :
    blank.busy = false ∧ 6 ≤ (BitVec.extractLsb' 0 8 0x00000006#32).toNat ∧
    6 ≤ (BitVec.extractLsb' 0 8 0xFFFFFFFF#32).toNat ∧
    (BitVec.extractLsb' 0 8 0x00000103#32).toNat ≤ 3 ∧ BitVec.extractLsb' 8 24 0x00000103#32 ≠ 0#24 := by decide
theorem witness_IdleEngineChangesNothing : blank.busy = false := by decide
/-- Busy with a host that resets, and busy with no event to come. -/
theorem witness_BusyFallsWithinSchedule :
    (running 0x2#32 blank).busy = true ∧ ({ running 0x2#32 blank with inputs := [] } : State).busy = true := by decide
theorem witness_NopCompletes :
    BitVec.extractLsb' 0 8 0x00000100#32 = 0x00#8 ∧ BitVec.extractLsb' 8 24 0x00000100#32 ≠ 0#24 := by decide
theorem witness_ClrfreqCompletes :
    BitVec.extractLsb' 0 8 0xFFFFFF01#32 = 0x01#8 ∧ BitVec.extractLsb' 8 24 0xFFFFFF01#32 ≠ 0#24 := by decide

/-! ## Witnesses: BUILD -/

/-- Two counts that do not fit 32 bits together (R154). -/
def heavy : State := counts [(0, 0xFFFFFFFF#32), (1, 1#32)]
theorem witness_BuildFailures :
    blank.memoryWf = true ∧ (∀ y < 256, blank.freq.read y = 0#32) ∧ heavy.memoryWf = true ∧
    0xFFFFFFFF < (heavy.freq.map BitVec.toNat).sum := by decide +kernel
/-- One count that fits exactly (L2.3 row 8). -/
def full : State := counts [(0xFF, 0xFFFFFFFF#32)]
theorem witness_BuildCompletes_single :
    full.memoryWf = true ∧ [0xFF#8].Pairwise (fun a b => BitVec.toNat a < BitVec.toNat b) ∧
    (∀ y : Byte, y ∈ [0xFF#8] ↔ full.freq.read y.toNat ≠ 0#32) ∧ [0xFF#8] ≠ [] ∧
    (full.freq.map BitVec.toNat).sum ≤ 0xFFFFFFFF := by decide +kernel
theorem witness_BuildCompletes :
    xyz.memoryWf = true ∧ [0x78#8, 0x79#8, 0x7A#8].Pairwise (fun a b => BitVec.toNat a < BitVec.toNat b) ∧
    (∀ y : Byte, y ∈ [0x78#8, 0x79#8, 0x7A#8] ↔ xyz.freq.read y.toNat ≠ 0#32) ∧ [0x78#8, 0x79#8, 0x7A#8] ≠ [] ∧
    (xyz.freq.map BitVec.toNat).sum ≤ 0xFFFFFFFF := by decide +kernel
/-- The state after BUILD over the counts of L2.3 row 5. -/
def built : State := after xyz (exec .build xyz)
theorem built_eq : exec .build xyz = .next built := goes_on (by decide +kernel)
/-- L2.3 row 5. -/
theorem built_tree :
    (built.done, built.nodeCount, built.root) = (true, 5#10, 4#9) ∧
    (built.node.read 0, built.node.read 1, built.node.read 2) =
      (.leaf 2#32 0x78#8, .leaf 1#32 0x79#8, .leaf 1#32 0x7A#8) ∧
    (built.node.read 3, built.node.read 4) = (.internal 2#32 1#9 2#9, .internal 4#32 0#9 3#9) := by decide +kernel
theorem witness_BuildMergesLeastKeys :
    xyz.memoryWf = true ∧ (∃ y < 256, xyz.freq.read y ≠ 0#32) ∧ (xyz.freq.map BitVec.toNat).sum ≤ 0xFFFFFFFF ∧
    exec .build xyz = .next built ∧ 3 < built.nodeCount.toNat ∧ leafCount built ≤ 3 ∧
    4 < built.nodeCount.toNat := by
  have h := built_tree.1
  simp only [Prod.mk.injEq] at h
  exact ⟨xyz_memoryWf, ⟨0x78, by decide, by decide⟩, by decide +kernel, built_eq, by simp [h], by simp [leafCount, h],
    by simp [h]⟩
/-- Two states with the same FREQ and different NODE memory. -/
def xyzCounts : State := counts [(0x78, 2#32), (0x79, 1#32), (0x7A, 1#32)]
theorem witness_BuildDependsOnFreqOnly :
    xyz.memoryWf = true ∧ xyzCounts.memoryWf = true ∧ xyz.freq = xyzCounts.freq ∧ xyz.done = false ∧
    xyzCounts.done = false ∧ exec .build xyz = .next built ∧
    exec .build xyzCounts = .next (after xyzCounts (exec .build xyzCounts)) ∧ built.done = true :=
  ⟨xyz_memoryWf, by decide +kernel, rfl, rfl, rfl, built_eq, goes_on (by decide +kernel), by have h := built_tree.1; simp only [Prod.mk.injEq] at h; exact h.1⟩
/-- The paths of L2.3 row 5's tree, and a code of the same symbols with other lengths. -/
def xyzPath (y : Byte) : BitString := if y = 0x78#8 then [false] else [true, decide (y = 0x7A#8)]
def otherCode (y : Byte) : BitString := if y = 0x79#8 then [false] else [true, decide (y = 0x7A#8)]
theorem witness_BuildIsOptimal :
    xyz.memoryWf = true ∧ [0x78#8, 0x79#8, 0x7A#8].Nodup ∧
    (∀ y : Byte, y ∈ [0x78#8, 0x79#8, 0x7A#8] ↔ xyz.freq.read y.toNat ≠ 0#32) ∧
    2 ≤ [0x78#8, 0x79#8, 0x7A#8].length ∧ (xyz.freq.map BitVec.toNat).sum ≤ 0xFFFFFFFF ∧
    exec .build xyz = .next built ∧
    (∀ y ∈ [0x78#8, 0x79#8, 0x7A#8], LeadsTo built.node built.root (xyzPath y) y) ∧
    (∀ y ∈ [0x78#8, 0x79#8, 0x7A#8], ∀ z ∈ [0x78#8, 0x79#8, 0x7A#8], y ≠ z → ¬(otherCode y <+: otherCode z)) := by
  refine ⟨xyz_memoryWf, by decide, by decide +kernel, by decide, by decide +kernel, built_eq, ?_, by decide⟩
  have h := built_tree
  simp only [Prod.mk.injEq] at h
  intro y hy
  simp only [List.mem_cons, List.not_mem_nil, or_false] at hy
  rcases hy with rfl | rfl | rfl
  · exact ⟨0#9, 2#32, by simp [follow, xyzPath, h], by simp [h]⟩
  · exact ⟨1#9, 1#32, by simp [follow, xyzPath, h], by simp [h]⟩
  · exact ⟨2#9, 1#32, by simp [follow, xyzPath, h], by simp [h]⟩

/-! ## Witnesses: GENCODES -/

theorem xyz_treeOk : TreeOk xyz := by decide +kernel
theorem single_treeOk : TreeOk single := by decide +kernel
theorem witness_GencodesWithoutTreeFails : blank.nodeCount = 0#10 := by decide
theorem witness_GencodesRecordsPaths :
    xyz.memoryWf = true ∧ xyz.nodeCount ≠ 0#10 ∧ TreeOk xyz ∧ single.memoryWf = true ∧ single.nodeCount ≠ 0#10 ∧
    TreeOk single :=
  ⟨xyz_memoryWf, by decide, xyz_treeOk, single_memoryWf, by decide, single_treeOk⟩
/-- The state after GENCODES over that tree. -/
def coded : State := after xyz (exec .gencodes xyz)
theorem coded_eq : exec .gencodes xyz = .next coded := goes_on (by decide +kernel)
theorem witness_CodesArePrefixFree :
    xyz.memoryWf = true ∧ xyz.nodeCount ≠ 0#10 ∧ TreeOk xyz ∧ exec .gencodes xyz = .next coded ∧
    (0x78#8 : Byte) ≠ 0x79#8 ∧ (coded.code.read (0x78#8 : Byte).toNat).valid = true ∧
    (coded.code.read (0x79#8 : Byte).toNat).valid = true :=
  ⟨xyz_memoryWf, by decide, xyz_treeOk, coded_eq, by decide, by decide +kernel, by decide +kernel⟩
theorem witness_CodeLengthsMeetKraftEquality :
    xyz.memoryWf = true ∧ xyz.nodeCount ≠ 0#10 ∧ TreeOk xyz ∧ 2 ≤ leafCount xyz ∧ exec .gencodes xyz = .next coded ∧
    (coded.code.read 0x7A).valid = true :=
  ⟨xyz_memoryWf, by decide, xyz_treeOk, by decide, coded_eq, by decide +kernel⟩

/-! ## Witnesses: ENCODE -/

theorem witness_EncodeArgumentAndCodesChecked :
    blank.cfg.symbufDepth < 9 ∧ 8 ≤ blank.cfg.symbufDepth ∧ 0 ≤ blank.cfg.symbufDepth ∧ blank.codesValid = false := by
  decide
theorem witness_EncodeCompletes :
    xyzInput.memoryWf = true ∧ 4 ≤ xyzInput.cfg.symbufDepth ∧ xyzInput.codesValid = true ∧
    (∀ y ∈ inputSymbols xyzInput 4, (xyzInput.code.read y.toNat).valid = true ∧
      (xyzInput.code.read y.toNat).len.toNat = (xyzInput.code.read y.toNat).bits.length) ∧
    ((inputSymbols xyzInput 4).map (fun y => (xyzInput.code.read y.toNat).len.toNat)).sum ≤ xyzInput.cfg.bitcap := by
  decide +kernel
/-- A table in which one code is 60 bits long, so that a second one does not fit. -/
def long : State :=
  { xyzInput with code := xyzInput.code.write 0x78 ⟨true, 60#8, List.replicate 60 true⟩ }
/-- The symbol at 4 has no code; in `long` the code of the symbol at 3 does not fit after 64 bits. -/
theorem witness_EncodeFailsAtFirstBadSymbol :
    (xyzInput.memoryWf = true ∧ 5 ≤ xyzInput.cfg.symbufDepth ∧ xyzInput.codesValid = true ∧ 4 < 5 ∧
      (∀ y ∈ inputSymbols xyzInput 4, (xyzInput.code.read y.toNat).valid = true ∧
        (xyzInput.code.read y.toNat).len.toNat = (xyzInput.code.read y.toNat).bits.length) ∧
      (storedCodes xyzInput (inputSymbols xyzInput 4)).flatten.length ≤ xyzInput.cfg.bitcap ∧
      (xyzInput.code.read (xyzInput.symbuf.read 4).toNat).valid = false) ∧
    (long.memoryWf = true ∧ 4 ≤ long.cfg.symbufDepth ∧ long.codesValid = true ∧ 3 < 4 ∧
      (∀ y ∈ inputSymbols long 3, (long.code.read y.toNat).valid = true ∧
        (long.code.read y.toNat).len.toNat = (long.code.read y.toNat).bits.length) ∧
      (storedCodes long (inputSymbols long 3)).flatten.length ≤ long.cfg.bitcap ∧
      (long.code.read (long.symbuf.read 3).toNat).valid = true ∧
      long.cfg.bitcap < (storedCodes long (inputSymbols long 3)).flatten.length +
        (long.code.read (long.symbuf.read 3).toNat).len.toNat) := by
  decide +kernel
/-- The state after ENCODE 4. -/
def encoded : State := after xyzInput (exec (.encode 4) xyzInput)
theorem encoded_eq : exec (.encode 4) xyzInput = .next encoded := goes_on (by decide +kernel)
theorem witness_EncodeReadsNoTree : exec (.encode 4) xyzInput = .next encoded ∧ encoded.done = true :=
  ⟨encoded_eq, by decide +kernel⟩

/-! ## Witnesses: DECODE -/

/-- A code of a tree whose root is internal. -/
theorem isCode_of_path {node : Memory Node} {root x : NodeId} {y : Byte} {f : Word} {p : BitString}
    (hr : (node.read root.toNat).isLeaf = false) (hp : follow node root p = some x)
    (hx : node.read x.toNat = .leaf f y) : IsCode node root y p := by
  unfold IsCode
  rw [hr]
  exact ⟨x, f, hp, hx⟩

theorem xyz_code_x : IsCode xyz.node xyz.root 0x78#8 [false] :=
  isCode_of_path (x := 0#9) (f := 2#32) (by decide) (by decide) (by decide)
theorem xyz_code_y : IsCode xyz.node xyz.root 0x79#8 [true, false] :=
  isCode_of_path (x := 1#9) (f := 1#32) (by decide) (by decide) (by decide)
theorem xyz_code_z : IsCode xyz.node xyz.root 0x7A#8 [true, true] :=
  isCode_of_path (x := 2#9) (f := 1#32) (by decide) (by decide) (by decide)
theorem single_code : IsCode single.node single.root 0x61#8 [false] := by
  unfold IsCode
  exact ⟨rfl, rfl⟩

theorem witness_DecodeArgumentAndTreeChecked :
    blank.cfg.bitcap < 65 ∧ 64 ≤ blank.cfg.bitcap ∧ 0 ≤ blank.cfg.bitcap ∧ blank.nodeCount = 0#10 := by decide
/-- L2.6 row 9: the stream "1011" is y z. -/
def yzStream : State := stream [0xB0000000#32, 0#32] xyz
theorem yzStream_memoryWf : yzStream.memoryWf = true := by decide +kernel
theorem witness_DecodeCompletes :
    yzStream.memoryWf = true ∧ yzStream.nodeCount ≠ 0#10 ∧
    AreCodes yzStream.node yzStream.root [0x79#8, 0x7A#8] [[true, false], [true, true]] ∧
    StreamIs yzStream.bitbuf [[true, false], [true, true]].flatten ∧
    [[true, false], [true, true]].flatten.length ≤ yzStream.cfg.bitcap ∧
    [0x79#8, 0x7A#8].length ≤ yzStream.cfg.symbufDepth :=
  ⟨yzStream_memoryWf, by decide, .cons xyz_code_y (.cons xyz_code_z .nil), by unfold StreamIs; decide, by decide,
    by decide⟩
/-- L2.6 row 8: the stream "01" is x and half a code. -/
def xStream : State := stream [0x40000000#32, 0#32] xyz
theorem xStream_memoryWf : xStream.memoryWf = true := by decide +kernel
theorem xStream_treeOk : TreeOk xStream := by decide +kernel
theorem witness_DecodeReportsTruncatedCode :
    xStream.memoryWf = true ∧ xStream.nodeCount ≠ 0#10 ∧ TreeOk xStream ∧
    (xStream.node.read xStream.root.toNat).isLeaf = false ∧
    AreCodes xStream.node xStream.root [0x78#8] [[false]] ∧ [true] ≠ [] ∧
    follow xStream.node xStream.root [true] = some 3#9 ∧ (xStream.node.read (3#9 : NodeId).toNat).isLeaf = false ∧
    StreamIs xStream.bitbuf ([[false]].flatten ++ [true]) ∧
    ([[false]].flatten ++ [true]).length ≤ xStream.cfg.bitcap ∧ [0x78#8].length ≤ xStream.cfg.symbufDepth :=
  ⟨xStream_memoryWf, by decide, xStream_treeOk, by decide, .cons xyz_code_x .nil, by decide, by decide, by decide,
    by unfold StreamIs; decide, by decide, by decide⟩
/-- L2.6 row 11: the stream "001" with a single leaf. -/
def singleStream : State := stream [0x20000000#32, 0#32] single
theorem witness_DecodeOneBitOfSingleLeafFails :
    singleStream.memoryWf = true ∧ singleStream.nodeCount ≠ 0#10 ∧
    singleStream.node.read singleStream.root.toNat = .leaf 3#32 0x61#8 ∧ 3 ≤ singleStream.cfg.bitcap ∧ 2 < 3 ∧
    2 ≤ singleStream.cfg.symbufDepth ∧ (∀ i < 2, streambit singleStream.bitbuf i = false) ∧
    streambit singleStream.bitbuf 2 = true := by decide +kernel
/-- L2.6 rows 16 to 18's case: eight x fill the buffer and one more completes. -/
theorem witness_DecodeReportsFullBuffer :
    xyz.memoryWf = true ∧ xyz.nodeCount ≠ 0#10 ∧
    AreCodes xyz.node xyz.root (List.replicate 8 0x78#8) (List.replicate 8 [false]) ∧
    IsCode xyz.node xyz.root 0x78#8 [false] ∧
    StreamIs xyz.bitbuf ((List.replicate 8 [false]).flatten ++ [false]) ∧
    (List.replicate 8 (0x78#8 : Byte)).length = xyz.cfg.symbufDepth ∧
    ((List.replicate 8 [false]).flatten ++ [false]).length ≤ 64 ∧ 64 ≤ xyz.cfg.bitcap := by
  have h := xyz_code_x
  exact ⟨xyz_memoryWf, by decide, .cons h (.cons h (.cons h (.cons h (.cons h (.cons h (.cons h (.cons h .nil))))))),
    h, by unfold StreamIs; decide, by decide, by decide, by decide⟩
theorem witness_DecodeReadsNoCodeTable :
    exec (.decode 4) yzStream = .next (after yzStream (exec (.decode 4) yzStream)) ∧
    (after yzStream (exec (.decode 4) yzStream)).done = true := ⟨goes_on (by decide +kernel), by decide +kernel⟩

/-! ## Witnesses: the invariant and the whole machine -/

/-- The state with a tree and its codes meets the invariant. -/
theorem xyzInput_inv : Inv xyzInput where
  memory := xyzInput_memoryWf
  status := by decide +kernel
  started := fun h => absurd h (by decide)
  tree := by decide +kernel
  codes := by decide +kernel
  results := by decide +kernel
/-- After ENCODE 4, another SYMBUF: no entry still holds what was encoded. -/
def overwritten : State := { encoded with symbuf := List.replicate 8 0xFF#8 }
theorem witness_DecodeInvertsEncode :
    Inv xyzInput ∧ xyzInput.codesValid = true ∧ xyzInput.done = false ∧ exec (.encode 4) xyzInput = .next encoded ∧
    encoded.done = true ∧ overwritten.memoryWf = true ∧ overwritten.cfg = encoded.cfg ∧
    overwritten.node = encoded.node ∧ overwritten.nodeCount = encoded.nodeCount ∧ overwritten.root = encoded.root ∧
    overwritten.bitbuf = encoded.bitbuf :=
  ⟨xyzInput_inv, rfl, rfl, encoded_eq, by decide +kernel, by decide +kernel, rfl, rfl, rfl, rfl, rfl⟩
theorem witness_SoftResetClearsRegisters :
    BitVec.getLsbD 0xFFFFFFFF#32 0 = true ∧ BitVec.getLsbD 0xFFFFFFFE#32 0 = false ∧
    ¬((running 0x604#32 xyz).busy = true ∧ decodeWord (running 0x604#32 xyz).pending = .ok .clrfreq) ∧
    ¬((running 0x604#32 xyz).busy = true ∧ decodeWord (running 0x604#32 xyz).pending = .ok .build) ∧
    ¬((running 0x604#32 xyz).busy = true ∧ decodeWord (running 0x604#32 xyz).pending = .ok .gencodes) ∧
    ¬(xyz.busy = true ∧ ∃ n, decodeWord xyz.pending = .ok (.encode n)) ∧
    ¬(xyz.busy = true ∧ ∃ l, decodeWord xyz.pending = .ok (.decode l)) := by
  refine ⟨by decide, by decide, by decide, by decide, by decide, ?_, ?_⟩ <;> exact fun h => absurd h.1 (by decide)
theorem witness_ResetReadsResetValues :
    (∃ f, Event.hardwareReset none = .hardwareReset f) ∧
    ∃ v, writeEvent 0x0008#16 0x1#32 = writeEvent 0x0008#16 v ∧ v.getLsbD 0 = true :=
  ⟨⟨none, rfl⟩, ⟨0x1#32, rfl, by decide⟩⟩

/-- The invariant with DECODE running, which is what acceptance leaves. -/
def decoding : State := running 0x00000605#32 xyzInput
theorem decoding_inv : Inv decoding where
  memory := xyzInput_memoryWf
  status := by decide +kernel
  started := by
    intro _ i hi
    have h : (decodeWord decoding.pending).toOption = some (.decode 6) := by decide
    rw [h] at hi
    cases hi
    rfl
  tree := xyzInput_inv.tree
  codes := xyzInput_inv.codes
  results := by decide +kernel
theorem witness_StepKeepsInvariant :
    Inv decoding ∧ decoding.memoryWf = true ∧ StatusOk decoding ∧
    step decoding = .next (after decoding (step decoding)) :=
  ⟨decoding_inv, decoding_inv.memory, decoding_inv.status, goes_on (by decide +kernel)⟩

/-- A BUILD that completes over the counts of L2.3 row 5, from a state with no tree. -/
theorem witness_OnlyBuildAndResetChangeTree :
    step (running 0x2#32 xyzCounts) = .next (after xyzCounts (step (running 0x2#32 xyzCounts))) ∧
    (after xyzCounts (step (running 0x2#32 xyzCounts))).nodeCount ≠ (running 0x2#32 xyzCounts).nodeCount ∧
    (after xyzCounts (step (running 0x2#32 xyzCounts))).root ≠ (running 0x2#32 xyzCounts).root ∧
    (after xyzCounts (step (running 0x2#32 xyzCounts))).node ≠ (running 0x2#32 xyzCounts).node :=
  ⟨goes_on (by decide +kernel), by decide +kernel, by decide +kernel, by decide +kernel⟩
/-- A GENCODES that completes raises CODES_VALID and changes the code memory; an acceptance of BUILD clears it. -/
theorem witness_OnlyGencodesAndResetChangeCodes :
    step (running 0x3#32 xyzTree) = .next (after xyzTree (step (running 0x3#32 xyzTree))) ∧
    (after xyzTree (step (running 0x3#32 xyzTree))).codesValid = true ∧
    (running 0x3#32 xyzTree).codesValid = false ∧
    (after xyzTree (step (running 0x3#32 xyzTree))).code ≠ (running 0x3#32 xyzTree).code ∧
    step (xyz.withInputs [writeEvent 0x000C#16 0x2#32]) =
      .next (after xyz (step (xyz.withInputs [writeEvent 0x000C#16 0x2#32]))) ∧
    (after xyz (step (xyz.withInputs [writeEvent 0x000C#16 0x2#32]))).codesValid = false ∧
    (xyz.withInputs [writeEvent 0x000C#16 0x2#32]).codesValid = true :=
  ⟨goes_on (by decide +kernel), by decide +kernel, rfl, by decide +kernel, goes_on (by decide +kernel),
    by decide +kernel, rfl⟩
theorem witness_OnlyHostClrfreqAndResetChangeFreq :
    step (running 0x1#32 xyz) = .next (after xyz (step (running 0x1#32 xyz))) ∧
    (after xyz (step (running 0x1#32 xyz))).freq ≠ (running 0x1#32 xyz).freq :=
  ⟨goes_on (by decide +kernel), by decide +kernel⟩

end Sys2Proof.Machine.Tests
end

section
/-! PROOFS. The shape of the memories and the configuration, which every step keeps (spec 00_scope.md R6; 10_state.md
R20): first what each update of the state does to them, then the host port, then the commands, then the step. -/

namespace Sys2Proof.Machine

/-! ## Updates that touch no memory -/

section
variable (s : State)

@[simp] theorem State.withInputs_memoryWf (evs : List Event) :
    (s.withInputs evs).memoryWf = s.memoryWf := rfl
@[simp] theorem State.withResponse_memoryWf (d : Word) (b : Bool) :
    (s.withResponse d b).memoryWf = s.memoryWf := rfl
@[simp] theorem State.withTree_memoryWf (c : BitVec 10) (r : NodeId) :
    (s.withTree c r).memoryWf = s.memoryWf := rfl
@[simp] theorem State.withCodesValid_memoryWf (b : Bool) :
    (s.withCodesValid b).memoryWf = s.memoryWf := rfl
@[simp] theorem State.withEncBitLen_memoryWf (v : Word) :
    (s.withEncBitLen v).memoryWf = s.memoryWf := rfl
@[simp] theorem State.withDecSymCount_memoryWf (v : Word) :
    (s.withDecSymCount v).memoryWf = s.memoryWf := rfl
@[simp] theorem errorEntry_memoryWf (e : ErrCode) (i0 i1 : Word) :
    (errorEntry e i0 i1 s).memoryWf = s.memoryWf := rfl
@[simp] theorem completeDone_memoryWf : (completeDone s).memoryWf = s.memoryWf := rfl
@[simp] theorem acknowledge_memoryWf (v : Word) : (acknowledge v s).memoryWf = s.memoryWf := rfl
@[simp] theorem writeIe_memoryWf (v : Word) : (writeIe v s).memoryWf = s.memoryWf := rfl
@[simp] theorem writeIe_cfg (v : Word) : (writeIe v s).cfg = s.cfg := rfl
@[simp] theorem acceptCommon_memoryWf (w : Word) : (acceptCommon w s).memoryWf = s.memoryWf := rfl
@[simp] theorem overrun_memoryWf : (overrun s).memoryWf = s.memoryWf := rfl

@[simp] theorem finish_memoryWf (e : Ending) : (finish e s).memoryWf = s.memoryWf := by
  cases e <;> rfl

@[simp] theorem startEffects_memoryWf (i : Instr) : (startEffects i s).memoryWf = s.memoryWf := by
  cases i <;> rfl

@[simp] theorem startEffects_cfg (i : Instr) : (startEffects i s).cfg = s.cfg := by
  cases i <;> rfl

@[simp] theorem accept_memoryWf (w : Word) : (accept w s).memoryWf = s.memoryWf := by
  cases h : decodeWord w with
  | ok i => simp [accept_legal h]
  | error r => simp [accept_illegal h]

@[simp] theorem accept_cfg (w : Word) : (accept w s).cfg = s.cfg := by
  cases h : decodeWord w with
  | ok i => simp [accept_legal h]
  | error r => simp [accept_illegal h]

@[simp] theorem issue_memoryWf (w : Word) : (issue w s).memoryWf = s.memoryWf := by
  unfold issue
  split <;> simp

@[simp] theorem issue_cfg (w : Word) : (issue w s).cfg = s.cfg := by
  unfold issue
  split <;> simp

end

/-! ## Updates that replace one memory -/

section
variable {s : State} (h : s.memoryWf = true)
include h

theorem State.withFreq_memoryWf {m : Memory Word} (hm : m.length = s.freq.length) :
    (s.withFreq m).memoryWf = true := by
  rw [State.memoryWf_iff] at h ⊢
  simpa [hm] using h

theorem State.withNode_memoryWf {m : Memory Node} (hm : m.length = s.node.length) :
    (s.withNode m).memoryWf = true := by
  rw [State.memoryWf_iff] at h ⊢
  simpa [hm] using h

theorem State.withCode_memoryWf {m : Memory CodeEntry} (hm : m.length = s.code.length) :
    (s.withCode m).memoryWf = true := by
  rw [State.memoryWf_iff] at h ⊢
  simpa [hm] using h

theorem State.withSymbuf_memoryWf {m : Memory Byte} (hm : m.length = s.symbuf.length) :
    (s.withSymbuf m).memoryWf = true := by
  rw [State.memoryWf_iff] at h ⊢
  simpa [hm] using h

theorem State.withBitbuf_memoryWf {m : Memory Word} (hm : m.length = s.bitbuf.length) :
    (s.withBitbuf m).memoryWf = true := by
  rw [State.memoryWf_iff] at h ⊢
  simpa [hm] using h

end

/-! ## The host port -/

/-- What a write to a register can do: nothing, or what R26, R27, R237 and R29 say of its register (R67). -/
theorem writeCsr_cases (r : Csr) (v : Word) (s : State) :
    writeCsr r v s = s ∨
    (r = .ctrl ∧ v.getLsbD 0 = true ∧ writeCsr r v s = softReset s) ∨
    (r = .cmd ∧ writeCsr r v s = issue v s) ∨
    (r = .status ∧ writeCsr r v s = acknowledge v s) ∨
    (r = .ie ∧ writeCsr r v s = writeIe v s) := by
  cases r with
  | ctrl =>
    by_cases hv : v.getLsbD 0 = true
    · exact .inr (.inl ⟨rfl, hv, if_pos hv⟩)
    · exact .inl (if_neg hv)
  | cmd => exact .inr (.inr (.inl ⟨rfl, rfl⟩))
  | status => exact .inr (.inr (.inr (.inl ⟨rfl, rfl⟩)))
  | ie => exact .inr (.inr (.inr (.inr ⟨rfl, rfl⟩)))
  | id | config | errcode | errinfo0 | errinfo1 | nodeCount | root | encBitlen | decSymcount => exact .inl rfl

theorem writeCsr_memoryWf (r : Csr) (v : Word) {s : State} (h : s.memoryWf = true) :
    (writeCsr r v s).memoryWf = true := by
  obtain e | ⟨-, -, e⟩ | ⟨-, e⟩ | ⟨-, e⟩ | ⟨-, e⟩ := writeCsr_cases r v s <;>
    simp [e, h, softReset_memoryWf]

@[simp] theorem writeCsr_cfg (r : Csr) (v : Word) (s : State) : (writeCsr r v s).cfg = s.cfg := by
  obtain e | ⟨-, -, e⟩ | ⟨-, e⟩ | ⟨-, e⟩ | ⟨-, e⟩ := writeCsr_cases r v s <;> simp [e]

theorem hostWrite_memoryWf (t : Target) (v : Word) {s : State} (h : s.memoryWf = true) :
    (hostWrite t v s).memoryWf = true := by
  cases t with
  | csr r => exact writeCsr_memoryWf r v h
  | freq i => exact State.withFreq_memoryWf h (Memory.length_write _ _ _)
  | node i w => exact h
  | code i w => exact h
  | symbuf i => exact State.withSymbuf_memoryWf h (Memory.length_write _ _ _)
  | bitbuf w => exact State.withBitbuf_memoryWf h (Memory.length_write _ _ _)

@[simp] theorem hostWrite_cfg (t : Target) (v : Word) (s : State) : (hostWrite t v s).cfg = s.cfg := by
  cases t with
  | csr r => exact writeCsr_cfg r v s
  | freq | node | code | symbuf | bitbuf => rfl

theorem hostAccess_memoryWf (a : Access) {s : State} (h : s.memoryWf = true) :
    (hostAccess a s).memoryWf = true := by
  obtain ⟨-, e⟩ | ⟨t, -, -, e⟩ | ⟨t, -, -, e⟩ := hostAccess_cases a s <;>
    simp [e, h, hostWrite_memoryWf]

@[simp] theorem hostAccess_cfg (a : Access) (s : State) : (hostAccess a s).cfg = s.cfg := by
  obtain ⟨-, e⟩ | ⟨t, -, -, e⟩ | ⟨t, -, -, e⟩ := hostAccess_cases a s <;> simp [e]

/-! ## The commands -/

theorem runBuild_memoryWf {s : State} (h : s.memoryWf = true) : (runBuild s).1.memoryWf = true := by
  unfold runBuild
  split
  · exact h
  split
  · exact h
  · exact State.withNode_memoryWf h (length_buildTree _ _)

theorem runGencodes_memoryWf {s : State} (h : s.memoryWf = true) :
    (runGencodes s).1.memoryWf = true := by
  unfold runGencodes
  split
  · exact h
  · exact State.withCode_memoryWf h (length_generateCodes _ _ _)

theorem writeStream_memoryWf (e : Encoded) {s : State} (h : s.memoryWf = true) :
    (writeStream e s).memoryWf = true := by
  unfold writeStream
  split <;> exact State.withBitbuf_memoryWf h (length_pack _ _ _)

theorem runEncode_memoryWf (n : Nat) {s : State} (h : s.memoryWf = true) :
    (runEncode n s).1.memoryWf = true := by
  unfold runEncode
  split
  · exact h
  split
  · exact h
  · exact writeStream_memoryWf _ h

theorem writeSymbols_memoryWf {c : Cursor} (e : Ending) {s : State} (h : s.memoryWf = true)
    (hc : c.symbuf.length = s.symbuf.length) : (writeSymbols c e s).memoryWf = true := by
  cases e <;> exact State.withSymbuf_memoryWf h hc

theorem runDecode_memoryWf (l : Nat) {s : State} (h : s.memoryWf = true) :
    (runDecode l s).1.memoryWf = true := by
  unfold runDecode
  split
  · exact h
  split
  · exact h
  · exact writeSymbols_memoryWf _ h (length_decodeLoop s l 0 (startCursor s))

@[simp] theorem runBuild_cfg (s : State) : (runBuild s).1.cfg = s.cfg := by
  obtain ⟨m, c, r, e⟩ := runBuild_frame s
  simp [e]

@[simp] theorem runGencodes_cfg (s : State) : (runGencodes s).1.cfg = s.cfg := by
  obtain ⟨m, b, e⟩ := runGencodes_frame s
  simp [e]

@[simp] theorem runEncode_cfg (n : Nat) (s : State) : (runEncode n s).1.cfg = s.cfg := by
  obtain ⟨m, v, e⟩ := runEncode_frame n s
  simp [e]

@[simp] theorem runDecode_cfg (l : Nat) (s : State) : (runDecode l s).1.cfg = s.cfg := by
  obtain ⟨m, v, e⟩ := runDecode_frame l s
  simp [e]

/-- What a state keeps on the way to `t`: the shape of every memory, and the configuration (R6, R20). -/
def KeepsShape (s t : State) : Prop := t.memoryWf = true ∧ t.cfg = s.cfg

/-- The completion's record of how a command ended touches no memory (R123). -/
theorem KeepsShape.finish {s t : State} (e : Ending) (h : KeepsShape s t) : KeepsShape s (finish e t) :=
  ⟨(finish_memoryWf t e).trans h.1, (finish_cfg e t).trans h.2⟩

/-- Every command answers a next state, and keeps the shape (R84, R127). -/
theorem exec_keepsShape (i : Instr) {s : State} (h : s.memoryWf = true) :
    ∃ t, exec i s = .next t ∧ KeepsShape s t := by
  cases i with
  | nop => exact ⟨_, rfl, .finish _ ⟨h, rfl⟩⟩
  | clrfreq =>
    have hfreq : clearedFreq.length = s.freq.length := by
      rw [length_clearedFreq, ((State.memoryWf_iff s).1 h).2.1]
    exact ⟨_, rfl, .finish _ ⟨State.withFreq_memoryWf h hfreq, rfl⟩⟩
  | build => exact ⟨_, rfl, .finish _ ⟨runBuild_memoryWf h, runBuild_cfg s⟩⟩
  | gencodes => exact ⟨_, rfl, .finish _ ⟨runGencodes_memoryWf h, runGencodes_cfg s⟩⟩
  | encode n => exact ⟨_, rfl, .finish _ ⟨runEncode_memoryWf n h, runEncode_cfg n s⟩⟩
  | decode l => exact ⟨_, rfl, .finish _ ⟨runDecode_memoryWf l h, runDecode_cfg l s⟩⟩

/-! ## The step -/

theorem engineTurn_keepsShape {s : State} (h : s.memoryWf = true) :
    ∃ t, engineTurn s = .next t ∧ KeepsShape s t := by
  obtain ⟨-, e⟩ | ⟨-, i, -, e⟩ | ⟨-, r, -, e⟩ := engineTurn_cases s
  · exact ⟨s, e, h, rfl⟩
  · rw [e]
    exact exec_keepsShape i h
  · exact ⟨_, e, h, rfl⟩

theorem step_keepsShape {s : State} (h : s.memoryWf = true) :
    ∃ t, step s = .next t ∧ KeepsShape s t := by
  obtain ⟨-, e⟩ | ⟨rest, -, e⟩ | ⟨a, rest, -, e⟩ | ⟨f, rest, -, e⟩ := step_cases s
  · rw [e]
    exact engineTurn_keepsShape h
  · rw [e]
    exact engineTurn_keepsShape (s := s.withInputs rest) h
  · exact ⟨_, e, hostAccess_memoryWf a h, hostAccess_cfg a _⟩
  · exact ⟨_, e, hardwareReset_memoryWf f _ h, hardwareReset_cfg f _⟩

/-- Settles O56: the step from a well-shaped state answers a next state that keeps the shape, and there is only one
answer. -/
theorem stepKeepsMemoryShape : Obligations.StepKeepsMemoryShape := by
  unfold Obligations.StepKeepsMemoryShape
  intro s t h hstep
  obtain ⟨t', hstep', hkeeps⟩ := step_keepsShape h
  obtain rfl : t = t' := Host.Outcome.next.inj (hstep.symm.trans hstep')
  exact hkeeps

end Sys2Proof.Machine
end

section
/-! PROOFS. What one step can do, said once: the inverse of the decoder (spec 30_encoding.md R103), the inverse of the
address map (20_memory.md R64, R69), the commands in one shape (40_control.md R127), and the cases of a step. -/

namespace Sys2Proof

/-! ## The inverse of the decoder -/

theorem eq_commandWord {w : Word} {op : BitVec 8} {n : Nat} (hop : opField w = op)
    (harg : (argField w).toNat = n) : w = commandWord n op := by
  subst hop harg
  exact (commandWord_fields w).symm

theorem decodeNoArg_eq_ok {w : Word} {i j : Instr} (h : decodeNoArg w i = .ok j) :
    (argField w).toNat = 0 ∧ j = i := by
  unfold decodeNoArg at h
  split at h
  · next harg => exact ⟨by simp [harg], (Except.ok.inj h).symm⟩
  · cases h

/-- A word that decodes is the word of its instruction (R103). -/
theorem eq_encode_of_decodeWord {w : Word} {i : Instr} (h : decodeWord w = .ok i) : w = encode i := by
  have noArg {j : Instr} {op : BitVec 8} (hop : opField w = op) (hj : encode j = commandWord 0 op)
      (h : decodeNoArg w j = .ok i) : w = encode i := by
    obtain ⟨harg, rfl⟩ := decodeNoArg_eq_ok h
    exact (eq_commandWord hop harg).trans hj.symm
  unfold decodeWord at h
  split at h
  · next hop => exact noArg hop rfl h
  split at h
  · next hop => exact noArg hop rfl h
  split at h
  · next hop => exact noArg hop rfl h
  split at h
  · next hop => exact noArg hop rfl h
  split at h
  · next hop =>
    cases h
    exact eq_commandWord hop rfl
  split at h
  · next hop =>
    cases h
    exact eq_commandWord hop rfl
  · cases h

end Sys2Proof

namespace Sys2Proof.Machine

/-! ## The inverse of the address map -/

theorem toNat_mod_four {off : Offset} (h : off.extractLsb' 0 2 = 0#2) : off.toNat % 4 = 0 := by
  simpa using congrArg BitVec.toNat h

theorem offset_of_csrOfIndex {k : Nat} {r : Csr} (h : csrOfIndex k = some r) : r.offset.toNat = 4 * k := by
  unfold csrOfIndex at h
  split at h <;> cases h <;> rfl

/-- What the address map can answer; for a register and for FREQ, at which offsets (R64, R69). -/
theorem resolve_cases {c : Config} {off : Offset} {t : Target} (h : resolve c off = some t) :
    (∃ r, t = .csr r ∧ csrOfIndex (off.toNat / 4) = some r) ∨
    (∃ i, t = .freq i ∧ 0x0400 ≤ off.toNat ∧ off.toNat ≤ 0x07FF) ∨
    (∃ i w, t = .node i w) ∨ (∃ i w, t = .code i w) ∨ (∃ i, t = .symbuf i) ∨ (∃ i, t = .bitbuf i) := by
  simp only [resolve] at h
  split at h
  · obtain ⟨r, hr, rfl⟩ := Option.map_eq_some_iff.mp h
    exact .inl ⟨r, rfl, hr⟩
  split at h
  · cases h
    exact .inr (.inl ⟨_, rfl, by omega, by omega⟩)
  split at h
  · cases h
  split at h
  · cases h
    exact .inr (.inr (.inl ⟨_, _, rfl⟩))
  split at h
  · cases h
  split at h
  · cases h
    exact .inr (.inr (.inr (.inl ⟨_, _, rfl⟩)))
  split at h
  · split at h
    · cases h
      exact .inr (.inr (.inr (.inr (.inl ⟨_, rfl⟩))))
    · cases h
  · split at h
    · cases h
      exact .inr (.inr (.inr (.inr (.inr ⟨_, rfl⟩))))
    · cases h

/-- An aligned offset of a register is that register's offset (R64). -/
theorem offset_of_resolve_csr {c : Config} {off : Offset} {r : Csr} (h : resolve c off = some (.csr r))
    (ha : off.extractLsb' 0 2 = 0#2) : off = r.offset := by
  obtain ⟨r', e, hr⟩ | ⟨i, e, -⟩ | ⟨i, w, e⟩ | ⟨i, w, e⟩ | ⟨i, e⟩ | ⟨i, e⟩ := resolve_cases h <;> cases e
  have := toNat_mod_four ha
  exact BitVec.eq_of_toNat_eq (by rw [offset_of_csrOfIndex hr]; omega)

theorem range_of_resolve_freq {c : Config} {off : Offset} {i : Nat} (h : resolve c off = some (.freq i)) :
    0x0400 ≤ off.toNat ∧ off.toNat ≤ 0x07FF := by
  obtain ⟨r', e, hr⟩ | ⟨i, e, hrange⟩ | ⟨i, w, e⟩ | ⟨i, w, e⟩ | ⟨i, e⟩ | ⟨i, e⟩ := resolve_cases h <;> cases e
  exact hrange

@[simp] theorem resolve_csr_offset (c : Config) (r : Csr) : resolve c r.offset = some (.csr r) := by
  cases r <;> rfl

theorem csr_offset_aligned (r : Csr) : r.offset.extractLsb' 0 2 = 0#2 := by
  cases r <;> rfl

/-! ## Reads and writes of registers -/

section
variable (s : State) (rest : List Event)

theorem judge_csr (r : Csr) (b : Bool) (v : Word) :
    judge { write := b, addr := r.offset, size := 2#2, wdata := v } s = .ok (.csr r) :=
  judge_ok rfl (csr_offset_aligned r) (resolve_csr_offset _ r) (.inr rfl)

/-- A read of a register (R61, R64): the register's word, no error, and nothing else. -/
theorem step_readEvent_csr (r : Csr) :
    step (s.withInputs (readEvent r.offset :: rest)) =
      .next ((s.withInputs rest).withResponse (readCsr r s) false) := by
  have hj := judge_csr (s.withInputs rest) r false 0#32
  change Host.Outcome.next (hostAccess _ (s.withInputs rest)) = _
  simp only [hostAccess, hj, Bool.false_eq_true, if_false]
  cases r <;> rfl

/-- A write to a register (R61, R64): what the register's rule says, no error. -/
theorem step_writeEvent_csr (r : Csr) (v : Word) :
    step (s.withInputs (writeEvent r.offset v :: rest)) =
      .next ((writeCsr r v (s.withInputs rest)).withResponse 0#32 false) := by
  have hj := judge_csr (s.withInputs rest) r true v
  change Host.Outcome.next (hostAccess _ (s.withInputs rest)) = _
  simp only [hostAccess, hj, if_true, hostWrite]

end

/-! ## The commands in one shape -/

/-- What a command does before its completion is recorded: the state it leaves and how it ends (R127). -/
def runCommand (i : Instr) (s : State) : State × Ending :=
  match i with
  | .nop => (s, .succeed)
  | .clrfreq => (s.withFreq clearedFreq, .succeed)
  | .build => runBuild s
  | .gencodes => runGencodes s
  | .encode n => runEncode n s
  | .decode l => runDecode l s

theorem exec_eq_finish (i : Instr) (s : State) :
    exec i s = .next (finish (runCommand i s).2 (runCommand i s).1) := by
  cases i <;> rfl

/-- What each command may write before its completion (R84). -/
theorem runCommand_cases (i : Instr) (s : State) :
    (runCommand i s).1 = s ∨
    (i = .clrfreq ∧ (runCommand i s).1 = s.withFreq clearedFreq) ∨
    (i = .build ∧ ∃ m c r, (runCommand i s).1 = (s.withNode m).withTree c r) ∨
    (i = .gencodes ∧ ∃ m b, (runCommand i s).1 = (s.withCode m).withCodesValid b) ∨
    (∃ m v, (runCommand i s).1 = (s.withBitbuf m).withEncBitLen v) ∨
    ∃ m v, (runCommand i s).1 = (s.withSymbuf m).withDecSymCount v := by
  cases i with
  | nop => exact .inl rfl
  | clrfreq => exact .inr (.inl ⟨rfl, rfl⟩)
  | build => exact .inr (.inr (.inl ⟨rfl, runBuild_frame s⟩))
  | gencodes => exact .inr (.inr (.inr (.inl ⟨rfl, runGencodes_frame s⟩)))
  | encode n => exact .inr (.inr (.inr (.inr (.inl (runEncode_frame n s)))))
  | decode l => exact .inr (.inr (.inr (.inr (.inr (runDecode_frame l s)))))

/-- Only BUILD writes the tree (R32, R34). -/
theorem runCommand_keepsTree {i : Instr} (hi : i ≠ .build) (s : State) :
    (runCommand i s).1.nodeCount = s.nodeCount ∧ (runCommand i s).1.root = s.root ∧
      (runCommand i s).1.node = s.node := by
  obtain e | ⟨-, e⟩ | ⟨hbuild, -⟩ | ⟨-, m, b, e⟩ | ⟨m, v, e⟩ | ⟨m, v, e⟩ := runCommand_cases i s
  case inr.inr.inl => exact absurd hbuild hi
  all_goals simp [e]

/-- Only GENCODES writes the code memory and `CODES_VALID` (R35, R36). -/
theorem runCommand_keepsCodes {i : Instr} (hi : i ≠ .gencodes) (s : State) :
    (runCommand i s).1.code = s.code ∧ (runCommand i s).1.codesValid = s.codesValid := by
  obtain e | ⟨-, e⟩ | ⟨-, m, c, r, e⟩ | ⟨hgen, -⟩ | ⟨m, v, e⟩ | ⟨m, v, e⟩ := runCommand_cases i s
  case inr.inr.inr.inl => exact absurd hgen hi
  all_goals simp [e]

/-- Only CLRFREQ writes FREQ (R33). -/
theorem runCommand_keepsFreq {i : Instr} (hi : i ≠ .clrfreq) (s : State) :
    (runCommand i s).1.freq = s.freq := by
  obtain e | ⟨hclr, -⟩ | ⟨-, m, c, r, e⟩ | ⟨-, m, b, e⟩ | ⟨m, v, e⟩ | ⟨m, v, e⟩ := runCommand_cases i s
  case inr.inl => exact absurd hclr hi
  all_goals simp [e]

/-- No command touches the status bits or the error record before its completion (R123). -/
theorem runCommand_keepsStatus (i : Instr) (s : State) :
    (runCommand i s).1.done = s.done ∧ (runCommand i s).1.err = s.err ∧
      (runCommand i s).1.errCode = s.errCode ∧ (runCommand i s).1.errInfo0 = s.errInfo0 ∧
      (runCommand i s).1.errInfo1 = s.errInfo1 := by
  obtain e | ⟨-, e⟩ | ⟨-, m, c, r, e⟩ | ⟨-, m, b, e⟩ | ⟨m, v, e⟩ | ⟨m, v, e⟩ := runCommand_cases i s <;>
    simp [e]

/-! ## The cases of a step -/

/-- The engine has the next turn (log entries 1, 2). -/
def EngineNext (s : State) : Prop := s.inputs = [] ∨ ∃ rest, s.inputs = .engine :: rest

/-- The state once its next event, if there is one, is taken from the inputs. -/
def State.popped (s : State) : State := s.withInputs s.inputs.tail

theorem State.popped_of_nil {s : State} (h : s.inputs = []) : s.popped = s := by
  rw [popped, h, List.tail_nil, ← h]
  rfl

theorem State.popped_of_cons {s : State} {ev : Event} {rest : List Event} (h : s.inputs = ev :: rest) :
    s.popped = s.withInputs rest := by rw [popped, h, List.tail_cons]

/-- What a step can lead to, by the event and what it does (R61, R123, R260). -/
inductive StepCase (s : State) : State → Prop
  /-- A bus error, a read, or a write that is a no-op (R67, R74, R231). -/
  | respond (d : Word) (b : Bool) : StepCase s (s.popped.withResponse d b)
  /-- A write to `CTRL` with bit 0 set (R26, R263). -/
  | softReset {v : Word} {rest : List Event} (hin : s.inputs = writeEvent 0x0008#16 v :: rest)
      (hv : v.getLsbD 0 = true) : StepCase s ((softReset s.popped).withResponse 0#32 false)
  /-- A write to `CMD` while idle (R120). -/
  | accept {w : Word} {rest : List Event} (hin : s.inputs = writeEvent 0x000C#16 w :: rest)
      (hidle : s.busy = false) : StepCase s ((accept w s.popped).withResponse 0#32 false)
  /-- A write to `CMD` while busy (R122). -/
  | overrun : StepCase s ((overrun s.popped).withResponse 0#32 false)
  /-- A write to `STATUS` (R237). -/
  | acknowledge (v : Word) : StepCase s ((acknowledge v s.popped).withResponse 0#32 false)
  /-- A write to `IE` (R29). -/
  | writeIe (v : Word) : StepCase s ((writeIe v s.popped).withResponse 0#32 false)
  /-- A write to the FREQ region while idle (R69). -/
  | writeFreq {off : Offset} {v : Word} {rest : List Event} (m : Memory Word)
      (hin : s.inputs = writeEvent off v :: rest) (hidle : s.busy = false)
      (hoff : 0x0400 ≤ off.toNat ∧ off.toNat ≤ 0x07FF) :
      StepCase s ((s.popped.withFreq m).withResponse 0#32 false)
  /-- A write to the SYMBUF region (R72). -/
  | writeSymbuf (m : Memory Byte) : StepCase s ((s.popped.withSymbuf m).withResponse 0#32 false)
  /-- A write to the BITBUF region (R73). -/
  | writeBitbuf (m : Memory Word) : StepCase s ((s.popped.withBitbuf m).withResponse 0#32 false)
  /-- An assertion of `rst_n` (R260). -/
  | hardwareReset {f : Option Access} {rest : List Event} (hin : s.inputs = .hardwareReset f :: rest) :
      StepCase s (hardwareReset f s.popped)
  /-- The engine's turn while idle. -/
  | idle : StepCase s s.popped
  /-- The completion of a command (R123, R127). -/
  | complete {i : Instr} (hturn : EngineNext s) (hbusy : s.busy = true) (hdec : decodeWord s.pending = .ok i) :
      StepCase s (finish (runCommand i s.popped).2 (runCommand i s.popped).1)
  /-- The completion of an illegal word (R105). -/
  | illegal (hbusy : s.busy = true) : StepCase s (errorEntry .illegalCommand s.pending 0#32 s.popped)

/-- A performed write, by its place (R67 to R73). -/
theorem stepCase_write {s : State} {a : Access} {t : Target} {rest : List Event}
    (hin : s.inputs = .access a :: rest) (hw : a.write = true) (hj : judge a s.popped = .ok t) :
    StepCase s ((hostWrite t a.wdata s.popped).withResponse 0#32 false) := by
  obtain ⟨hsize, halign, hres, hlock⟩ := judge_eq_ok hj
  have hev : s.inputs = writeEvent a.addr a.wdata :: rest := by rw [hin, writeEvent, ← hw, ← hsize]
  cases t with
  | csr r =>
    have hoff := offset_of_resolve_csr hres halign
    simp only [hostWrite]
    obtain e | ⟨rfl, hv, e⟩ | ⟨rfl, e⟩ | ⟨rfl, e⟩ | ⟨rfl, e⟩ := writeCsr_cases r a.wdata s.popped <;>
      rw [e]
    · exact .respond _ _
    · exact .softReset (hoff ▸ hev) hv
    · cases hb : s.busy with
      | false =>
        rw [issue_idle a.wdata (s := s.popped) hb]
        exact .accept (hoff ▸ hev) hb
      | true =>
        rw [issue_busy a.wdata (s := s.popped) hb]
        exact .overrun
    · exact .acknowledge _
    · exact .writeIe _
  | freq i =>
    have hidle : s.busy = false := hlock.resolve_right nofun
    exact .writeFreq _ hev hidle (range_of_resolve_freq hres)
  | node i w | code i w => exact .respond _ _
  | symbuf i => exact .writeSymbuf _
  | bitbuf i => exact .writeBitbuf _

/-- The engine's turn: a stutter, a command's completion, or an illegal word's (R123, R127). -/
theorem stepCase_engineTurn {s : State} (hturn : EngineNext s) :
    ∃ t, engineTurn s.popped = .next t ∧ StepCase s t := by
  obtain ⟨-, e⟩ | ⟨hb, i, hdec, e⟩ | ⟨hb, r, -, e⟩ := engineTurn_cases s.popped
  · exact ⟨_, e, .idle⟩
  · exact ⟨_, e.trans (exec_eq_finish i s.popped), .complete hturn hb hdec⟩
  · exact ⟨_, e, .illegal hb⟩

/-- A step answers a next state, and it is one of the cases. -/
theorem step_stepCase (s : State) : ∃ t, step s = .next t ∧ StepCase s t := by
  obtain ⟨hin, e⟩ | ⟨rest, hin, e⟩ | ⟨a, rest, hin, e⟩ | ⟨f, rest, hin, e⟩ := step_cases s
  · rw [e, ← congrArg engineTurn (State.popped_of_nil hin)]
    exact stepCase_engineTurn (.inl hin)
  · rw [e, ← State.popped_of_cons hin]
    exact stepCase_engineTurn (.inr ⟨rest, hin⟩)
  · refine ⟨_, e, ?_⟩
    rw [← State.popped_of_cons hin]
    obtain ⟨-, e⟩ | ⟨t, -, -, e⟩ | ⟨t, hj, hw, e⟩ := hostAccess_cases a s.popped <;> rw [e]
    · exact .respond _ _
    · exact .respond _ _
    · exact stepCase_write hin hw hj
  · rw [← State.popped_of_cons hin] at e
    exact ⟨_, e, .hardwareReset hin⟩

theorem StepCase.of_step {s t : State} (h : step s = .next t) : StepCase s t := by
  obtain ⟨t', e, hcase⟩ := step_stepCase s
  obtain rfl : t = t' := Host.Outcome.next.inj (h.symm.trans e)
  exact hcase

end Sys2Proof.Machine
end

section
/-! PROOFS. Which step changes the tree, the codes and FREQ (spec 10_state.md R32 to R36), what register accesses read
and write (R23 to R32, R39, R40), and what a soft reset leaves (70_reset_and_hazards.md R263, R264). -/

namespace Sys2Proof.Machine

/-! ## Acceptance, field by field -/

section
variable (w : Word) (s : State)

@[simp] theorem startEffects_freq (i : Instr) : (startEffects i s).freq = s.freq := by cases i <;> rfl
@[simp] theorem startEffects_node (i : Instr) : (startEffects i s).node = s.node := by cases i <;> rfl
@[simp] theorem startEffects_code (i : Instr) : (startEffects i s).code = s.code := by cases i <;> rfl

/-- An accepted word is illegal, or has the start effects of its command (R120, R121). -/
theorem accept_cases :
    (∃ i, decodeWord w = .ok i ∧ accept w s = startEffects i (acceptCommon w s)) ∨
    ((∃ r, decodeWord w = .error r) ∧ accept w s = acceptCommon w s) := by
  cases h : decodeWord w with
  | ok i => exact .inl ⟨i, rfl, accept_legal h s⟩
  | error r => exact .inr ⟨⟨r, rfl⟩, accept_illegal h s⟩

@[simp] theorem accept_freq : (accept w s).freq = s.freq := by
  obtain ⟨i, -, e⟩ | ⟨-, e⟩ := accept_cases w s <;> simp [e]

@[simp] theorem accept_node : (accept w s).node = s.node := by
  obtain ⟨i, -, e⟩ | ⟨-, e⟩ := accept_cases w s <;> simp [e]

@[simp] theorem accept_code : (accept w s).code = s.code := by
  obtain ⟨i, -, e⟩ | ⟨-, e⟩ := accept_cases w s <;> simp [e]

/-- Acceptance keeps `NODE_COUNT` and `ROOT`, but for BUILD's (R121). -/
theorem accept_tree : ((accept w s).nodeCount = s.nodeCount ∧ (accept w s).root = s.root) ∨
    w = 0x00000002#32 := by
  obtain ⟨i, hdec, e⟩ | ⟨-, e⟩ := accept_cases w s <;> rw [e]
  · cases i with
    | build => exact .inr (eq_encode_of_decodeWord hdec)
    | nop | clrfreq | gencodes | encode | decode => exact .inl ⟨rfl, rfl⟩
  · exact .inl ⟨rfl, rfl⟩

/-- Acceptance keeps `CODES_VALID`, but for BUILD and GENCODES, which clear it (R121). -/
theorem accept_codesValid : (accept w s).codesValid = s.codesValid ∨
    ((w = 0x00000002#32 ∨ w = 0x00000003#32) ∧ (accept w s).codesValid = false) := by
  obtain ⟨i, hdec, e⟩ | ⟨-, e⟩ := accept_cases w s <;> rw [e]
  · cases i with
    | build => exact .inr ⟨.inl (eq_encode_of_decodeWord hdec), rfl⟩
    | gencodes => exact .inr ⟨.inr (eq_encode_of_decodeWord hdec), rfl⟩
    | nop | clrfreq | encode | decode => exact .inl rfl
  · exact .inl rfl

end

/-! ## Who changes the tree, the codes and FREQ -/

/-- The next event is a reset by the host: a write to `CTRL` with bit 0 set, or `rst_n`. -/
def ResetNext (s : State) : Prop :=
  (∃ v rest, s.inputs = writeEvent 0x0008#16 v :: rest ∧ v.getLsbD 0 = true) ∨
    ∃ f rest, s.inputs = .hardwareReset f :: rest

/-- The next step completes the command of this word. -/
def Completes (w : Word) (s : State) : Prop := s.busy = true ∧ s.pending = w ∧ EngineNext s

/-- The next event is a write of the word to `CMD`, and the machine is idle. -/
def Accepts (w : Word) (s : State) : Prop :=
  ∃ rest, s.inputs = writeEvent 0x000C#16 w :: rest ∧ s.busy = false

theorem StepCase.tree {s t : State} (h : StepCase s t) :
    (t.nodeCount = s.nodeCount ∧ t.root = s.root ∧ t.node = s.node) ∨
      Accepts 0x00000002#32 s ∨ Completes 0x00000002#32 s ∨ ResetNext s := by
  cases h with
  | respond | overrun | acknowledge | writeIe | writeFreq | writeSymbuf | writeBitbuf | idle | illegal =>
    exact .inl ⟨rfl, rfl, rfl⟩
  | softReset hin hv => exact .inr (.inr (.inr (.inl ⟨_, _, hin, hv⟩)))
  | hardwareReset hin => exact .inr (.inr (.inr (.inr ⟨_, _, hin⟩)))
  | @accept w rest hin hidle =>
    obtain ⟨hcount, hroot⟩ | rfl := accept_tree w s.popped
    · exact .inl ⟨hcount, hroot, accept_node w s.popped⟩
    · exact .inr (.inl ⟨_, hin, hidle⟩)
  | @complete i hturn hbusy hdec =>
    by_cases hi : i = .build
    · subst hi
      exact .inr (.inr (.inl ⟨hbusy, eq_encode_of_decodeWord hdec, hturn⟩))
    · rw [finish_nodeCount, finish_root, finish_node]
      exact .inl (runCommand_keepsTree hi s.popped)

theorem StepCase.code {s t : State} (h : StepCase s t) :
    t.code = s.code ∨ Completes 0x00000003#32 s ∨ ResetNext s := by
  cases h with
  | respond | overrun | acknowledge | writeIe | writeFreq | writeSymbuf | writeBitbuf | idle | illegal =>
    exact .inl rfl
  | softReset hin hv => exact .inr (.inr (.inl ⟨_, _, hin, hv⟩))
  | hardwareReset hin => exact .inr (.inr (.inr ⟨_, _, hin⟩))
  | @accept w => exact .inl (accept_code w s.popped)
  | @complete i hturn hbusy hdec =>
    by_cases hi : i = .gencodes
    · subst hi
      exact .inr (.inl ⟨hbusy, eq_encode_of_decodeWord hdec, hturn⟩)
    · exact .inl ((finish_code _ _).trans (runCommand_keepsCodes hi s.popped).1)

/-- GENCODES at its completion never clears `CODES_VALID` (R170). -/
theorem runGencodes_codesValid (s : State) :
    (runGencodes s).1.codesValid = s.codesValid ∨ (runGencodes s).1.codesValid = true := by
  unfold runGencodes
  split
  · exact .inl rfl
  · exact .inr rfl

theorem StepCase.codesValid {s t : State} (h : StepCase s t) :
    t.codesValid = s.codesValid ∨ (t.codesValid = true ∧ Completes 0x00000003#32 s) ∨
      (t.codesValid = false ∧
        (Accepts 0x00000002#32 s ∨ Accepts 0x00000003#32 s ∨ ResetNext s)) := by
  cases h with
  | respond | overrun | acknowledge | writeIe | writeFreq | writeSymbuf | writeBitbuf | idle | illegal =>
    exact .inl rfl
  | softReset hin hv => exact .inr (.inr ⟨rfl, .inr (.inr (.inl ⟨_, _, hin, hv⟩))⟩)
  | hardwareReset hin => exact .inr (.inr ⟨rfl, .inr (.inr (.inr ⟨_, _, hin⟩))⟩)
  | @accept w rest hin hidle =>
    obtain hkept | ⟨rfl | rfl, hclear⟩ := accept_codesValid w s.popped
    · exact .inl hkept
    · exact .inr (.inr ⟨hclear, .inl ⟨_, hin, hidle⟩⟩)
    · exact .inr (.inr ⟨hclear, .inr (.inl ⟨_, hin, hidle⟩)⟩)
  | @complete i hturn hbusy hdec =>
    rw [finish_codesValid]
    by_cases hi : i = .gencodes
    · subst hi
      obtain hkept | hset := runGencodes_codesValid s.popped
      · exact .inl hkept
      · exact .inr (.inl ⟨hset, hbusy, eq_encode_of_decodeWord hdec, hturn⟩)
    · exact .inl (runCommand_keepsCodes hi s.popped).2

theorem StepCase.freq {s t : State} (h : StepCase s t) :
    t.freq = s.freq ∨
      (∃ off v rest, s.inputs = writeEvent off v :: rest ∧ s.busy = false ∧
        0x0400 ≤ off.toNat ∧ off.toNat ≤ 0x07FF) ∨
      Completes 0x00000001#32 s ∨ ResetNext s := by
  cases h with
  | respond | overrun | acknowledge | writeIe | writeSymbuf | writeBitbuf | idle | illegal => exact .inl rfl
  | softReset hin hv => exact .inr (.inr (.inr (.inl ⟨_, _, hin, hv⟩)))
  | hardwareReset hin => exact .inr (.inr (.inr (.inr ⟨_, _, hin⟩)))
  | writeFreq m hin hidle hoff => exact .inr (.inl ⟨_, _, _, hin, hidle, hoff⟩)
  | @accept w => exact .inl (accept_freq w s.popped)
  | @complete i hturn hbusy hdec =>
    by_cases hi : i = .clrfreq
    · subst hi
      exact .inr (.inr (.inl ⟨hbusy, eq_encode_of_decodeWord hdec, hturn⟩))
    · exact .inl ((finish_freq _ _).trans (runCommand_keepsFreq hi s.popped))

/-- Settles O58: of the cases of a step, only those four touch the tree. -/
theorem onlyBuildAndResetChangeTree : Obligations.OnlyBuildAndResetChangeTree := by
  unfold Obligations.OnlyBuildAndResetChangeTree
  intro s t hstep hchange
  obtain ⟨hcount, hroot, hnode⟩ | haccepts | hcompletes | hreset := (StepCase.of_step hstep).tree
  · simp [hcount, hroot, hnode] at hchange
  · exact .inl haccepts
  · exact .inr (.inl hcompletes)
  · exact .inr (.inr hreset)

/-- Settles O59: the cases of a step that change `CODES_VALID`, and those that change the code memory. -/
theorem onlyGencodesAndResetChangeCodes : Obligations.OnlyGencodesAndResetChangeCodes := by
  unfold Obligations.OnlyGencodesAndResetChangeCodes
  intro s t hstep
  have hcase := StepCase.of_step hstep
  refine ⟨fun ⟨hset, hclear⟩ => ?_, fun ⟨hclear, hset⟩ => ?_, fun hchange => hcase.code.resolve_left hchange⟩
  · obtain e | ⟨-, hcompletes⟩ | ⟨e, -⟩ := hcase.codesValid
    · simp [hset, hclear] at e
    · exact hcompletes
    · simp [hset] at e
  · obtain e | ⟨e, -⟩ | ⟨-, ⟨rest, hin, hidle⟩ | ⟨rest, hin, hidle⟩ | hreset⟩ := hcase.codesValid
    · simp [hset, hclear] at e
    · simp [hclear] at e
    · exact .inl ⟨_, rest, hin, hidle, .inl rfl⟩
    · exact .inl ⟨_, rest, hin, hidle, .inr rfl⟩
    · exact .inr hreset

/-- Settles O60: of the cases of a step, only those four touch FREQ. -/
theorem onlyHostClrfreqAndResetChangeFreq : Obligations.OnlyHostClrfreqAndResetChangeFreq := by
  unfold Obligations.OnlyHostClrfreqAndResetChangeFreq
  intro s t hstep hchange
  exact (StepCase.of_step hstep).freq.resolve_left hchange

/-! ## Registers -/

/-- A flag is at its bit and at no other. -/
@[simp] theorem getLsbD_flagAt (b : Bool) {p k : Nat} (hk : k < 32) :
    (flagAt b p).getLsbD k = (decide (k = p) && b) := by
  simp only [flagAt, BitVec.getLsbD_shiftLeft, BitVec.getLsbD_setWidth, BitVec.getLsbD_ofBool]
  by_cases h : k < p
  · simp [h, show k ≠ p by omega]
  · by_cases h' : k = p
    · simp [h', show p < 32 by omega]
    · simp [h', show ¬(k - p = 0) by omega]

theorem getLsbD_statusWord (s : State) {k : Nat} (hk : k < 32) :
    (statusWord s).getLsbD k =
      (decide (k = 0) && s.busy || decide (k = 1) && s.done || decide (k = 2) && s.err ||
        decide (k = 3) && s.ovr || decide (k = 4) && treeValid s || decide (k = 5) && s.codesValid) := by
  simp only [statusWord, BitVec.getLsbD_or, getLsbD_flagAt _ hk]

theorem getLsbD_ieWord (s : State) {k : Nat} (hk : k < 32) :
    (ieWord s).getLsbD k =
      (decide (k = 1) && s.doneIe || decide (k = 2) && s.errIe || decide (k = 3) && s.ovrIe) := by
  simp only [ieWord, BitVec.getLsbD_or, getLsbD_flagAt _ hk]

/-- A field of a word whose bits are all 0. -/
theorem extractLsb'_eq_zero {w : Word} {lo n : Nat} (h : ∀ k < n, w.getLsbD (lo + k) = false) :
    w.extractLsb' lo n = 0#n := by
  apply BitVec.eq_of_getLsbD_eq
  intro k hk
  simp [hk, h k hk]

/-- The fields of a word made of two half words. -/
theorem toNat_halfWords {a b : Nat} (ha : a < 2 ^ 16) (hb : b < 2 ^ 16) :
    (BitVec.ofNat 32 a ||| (BitVec.ofNat 32 b <<< 16)).toNat = 2 ^ 16 * b + a := by
  rw [BitVec.toNat_or, BitVec.toNat_shiftLeft, BitVec.toNat_ofNat, BitVec.toNat_ofNat,
    Nat.mod_eq_of_lt (by omega), Nat.mod_eq_of_lt (by omega), Nat.shiftLeft_eq, Nat.mod_eq_of_lt (by omega),
    Nat.or_comm, Nat.mul_comm, Nat.two_pow_add_eq_or_of_lt ha]

theorem configWord_fields {a b : Nat} (ha : a ≤ 4096) (hb : b ≤ 4096) {d : Word}
    (hd : d = BitVec.ofNat 32 a ||| (BitVec.ofNat 32 b <<< 16)) :
    (d.extractLsb' 0 13).toNat = a ∧ d.extractLsb' 13 3 = 0#3 ∧
      (d.extractLsb' 16 13).toNat = b ∧ d.extractLsb' 29 3 = 0#3 := by
  have hnat : d.toNat = 65536 * b + a := hd ▸ toNat_halfWords (by omega) (by omega)
  simp only [← BitVec.toNat_inj, BitVec.extractLsb'_toNat, hnat, Nat.shiftRight_eq_div_pow]
  simp
  omega

/-- Settles O19: each offset is a register's, and the register's word has its fields. -/
theorem registersReadTheirFields : Obligations.RegistersReadTheirFields := by
  unfold Obligations.RegistersReadTheirFields
  intro s rest hcfg
  have hread := step_readEvent_csr s rest
  obtain ⟨-, hdepth, -, hwords⟩ := (Config.wf_iff s.cfg).1 hcfg
  refine ⟨?_, ⟨_, hread .config, configWord_fields hdepth hwords rfl⟩, ⟨_, hread .status, ?_⟩,
    ⟨_, hread .ie, ?_⟩⟩
  · intro off d hmem
    simp only [List.mem_cons, Prod.mk.injEq, List.not_mem_nil, or_false] at hmem
    obtain ⟨rfl, rfl⟩ | ⟨rfl, rfl⟩ | ⟨rfl, rfl⟩ | ⟨rfl, rfl⟩ | ⟨rfl, rfl⟩ | ⟨rfl, rfl⟩ | ⟨rfl, rfl⟩ | ⟨rfl, rfl⟩ |
      ⟨rfl, rfl⟩ | ⟨rfl, rfl⟩ := hmem
    · exact hread .id
    · exact hread .ctrl
    · exact hread .cmd
    · exact hread .errcode
    · exact hread .errinfo0
    · exact hread .errinfo1
    · exact hread .nodeCount
    · exact hread .root
    · exact hread .encBitlen
    · exact hread .decSymcount
  · simp only [readCsr]
    refine ⟨?_, ?_, ?_, ?_, ?_, ?_, extractLsb'_eq_zero fun k hk => ?_⟩ <;>
      rw [getLsbD_statusWord s (by omega)] <;> simp [treeValid]
    omega
  · simp only [readCsr]
    refine ⟨?_, ?_, ?_, ?_, extractLsb'_eq_zero fun k hk => ?_⟩ <;>
      rw [getLsbD_ieWord s (by omega)] <;> simp
    omega

/-- Settles O21: the write to IE is performed in every state. -/
theorem ieWriteSetsEnables : Obligations.IeWriteSetsEnables := by
  unfold Obligations.IeWriteSetsEnables
  exact fun s v rest => step_writeEvent_csr s rest .ie v

/-! ## Soft reset -/

/-- The state whose memories a soft reset keeps (R263, R264). -/
def abandonIfBusy (s : State) : State := if s.busy then abandon s else s

theorem softReset_eq (s : State) : softReset s = resetRegisters (abandonIfBusy s) := rfl

/-- Abandoning changes the memories only. -/
theorem abandonIfBusy_frame (s : State) : ∃ (m : State), abandonIfBusy s =
    { s with freq := m.freq, node := m.node, code := m.code, symbuf := m.symbuf, bitbuf := m.bitbuf } := by
  refine ⟨abandonIfBusy s, ?_⟩
  unfold abandonIfBusy
  split
  · obtain ⟨_, _, _, _, _, e⟩ := abandon_frame s
    rw [e]
  · rfl

/-- A memory that no pending command writes is kept (R264). -/
theorem abandonIfBusy_keeps (s : State) :
    (¬(s.busy = true ∧ decodeWord s.pending = .ok .clrfreq) → (abandonIfBusy s).freq = s.freq) ∧
    (¬(s.busy = true ∧ decodeWord s.pending = .ok .build) → (abandonIfBusy s).node = s.node) ∧
    (¬(s.busy = true ∧ decodeWord s.pending = .ok .gencodes) → (abandonIfBusy s).code = s.code) ∧
    (¬(s.busy = true ∧ ∃ n, decodeWord s.pending = .ok (.encode n)) → (abandonIfBusy s).bitbuf = s.bitbuf) ∧
    (¬(s.busy = true ∧ ∃ l, decodeWord s.pending = .ok (.decode l)) → (abandonIfBusy s).symbuf = s.symbuf) := by
  unfold abandonIfBusy
  split
  · next hbusy =>
    unfold abandon
    cases decodeWord s.pending with
    | error r => simp
    | ok i =>
      cases i <;> simp [hbusy, drawFreq, drawNode, drawCode, drawSymbuf, drawBitbuf]
  · simp

/-- Settles O52: a soft reset is the reset of the registers of the state that abandoning leaves. -/
theorem softResetClearsRegisters : Obligations.SoftResetClearsRegisters := by
  unfold Obligations.SoftResetClearsRegisters
  intro s v rest
  have hstep := step_writeEvent_csr s rest .ctrl v
  refine ⟨fun hv => ?_, fun hv => ?_⟩
  · refine ⟨Config.freePending s.draws, s.draws + 1, abandonIfBusy (s.withInputs rest), ?_,
      abandonIfBusy_keeps (s.withInputs rest)⟩
    rw [writeCsr, if_pos hv, softReset_eq] at hstep
    obtain ⟨m, e⟩ := abandonIfBusy_frame (s.withInputs rest)
    rw [e] at hstep ⊢
    exact hstep
  · rw [writeCsr, if_neg (hv ▸ Bool.false_ne_true)] at hstep
    exact hstep

end Sys2Proof.Machine
end

section
/-! PROOFS. The status bits and the error record, which every step keeps consistent (spec 10_state.md R28, R30, R31;
40_control.md R120, R123; 60_exceptions.md R230). -/

namespace Sys2Proof.Machine

/-! ## How commands end -/

/-- The ending is recorded with one of this revision's codes (R215, R230). -/
def Ending.Recorded : Ending → Prop
  | .succeed => True
  | .fail e _ _ => e.code ∈ recordedCodes

theorem recorded_fail {e : ErrCode} {i0 i1 : Word} (hnone : e ≠ .none) (hbit : e ≠ .invalidBit) :
    (Ending.fail e i0 i1).Recorded := by
  change e.code ∈ recordedCodes
  cases e with
  | none => exact absurd rfl hnone
  | invalidBit => exact absurd rfl hbit
  | _ => decide

theorem encodeLoop_recorded (s : State) (left i : Nat) (stream : BitString) :
    (encodeLoop s left i stream).ending.Recorded := by
  induction left generalizing i stream with
  | zero => trivial
  | succ left ih =>
    simp only [encodeLoop]
    split
    · exact recorded_fail nofun nofun
    split
    · exact recorded_fail nofun nofun
    · exact ih _ _

theorem emit_recorded {depth k : Nat} {y : Byte} {c : Cursor} {e : Ending}
    (h : emit depth y k c = .error e) : e.Recorded := by
  unfold emit at h
  split at h <;> cases h
  exact recorded_fail nofun nofun

theorem decodeBit_recorded {s : State} {k : Nat} {c : Cursor} {e : Ending}
    (h : decodeBit s k c = .error e) : e.Recorded := by
  unfold decodeBit at h
  split at h
  · unfold decodeLeafBit at h
    split at h
    · cases h
      exact recorded_fail nofun nofun
    · exact emit_recorded h
  · simp only [decodeTreeBit] at h
    split at h
    · exact emit_recorded h
    · cases h

theorem decodeLoop_recorded (s : State) (left k : Nat) (c : Cursor) :
    (decodeLoop s left k c).2.Recorded := by
  induction left generalizing k c with
  | zero =>
    rw [decodeLoop]
    split
    · exact recorded_fail nofun nofun
    · trivial
  | succ left ih =>
    rw [decodeLoop]
    split
    · next h => exact decodeBit_recorded h
    · exact ih _ _

/-- BUILD fails and changes nothing, or installs the tree of a table that is not empty and fits (R150, R154). -/
theorem runBuild_cases (s : State) :
    (∃ i0 i1, runBuild s = (s, .fail .emptyAlphabet i0 i1)) ∨
    (∃ i0 i1, runBuild s = (s, .fail .freqOverflow i0 i1)) ∨
    (presentSymbols s.freq ≠ [] ∧ totalFreq s.freq ≤ 0xFFFFFFFF ∧
      runBuild s = (installTree (buildTree s.freq s.node) s, .succeed)) := by
  unfold runBuild
  by_cases hempty : presentSymbols s.freq = []
  · exact .inl ⟨_, _, if_pos hempty⟩
  rw [if_neg hempty]
  by_cases hfits : 0xFFFFFFFF < totalFreq s.freq
  · exact .inr (.inl ⟨_, _, if_pos hfits⟩)
  · exact .inr (.inr ⟨hempty, Nat.le_of_not_lt hfits, if_neg hfits⟩)

/-- Every command succeeds or fails with a code that is recorded; none raises InvalidBit (R215). -/
theorem runCommand_recorded (i : Instr) (s : State) : (runCommand i s).2.Recorded := by
  cases i with
  | nop | clrfreq => trivial
  | build =>
    simp only [runCommand]
    obtain ⟨i0, i1, e⟩ | ⟨i0, i1, e⟩ | ⟨-, -, e⟩ := runBuild_cases s <;> rw [e]
    · exact recorded_fail nofun nofun
    · exact recorded_fail nofun nofun
    · trivial
  | gencodes =>
    simp only [runCommand, runGencodes]
    split
    · exact recorded_fail nofun nofun
    · trivial
  | encode n =>
    simp only [runCommand, runEncode]
    split
    · exact recorded_fail nofun nofun
    split
    · exact recorded_fail nofun nofun
    · exact encodeLoop_recorded s n 0 []
  | decode l =>
    simp only [runCommand, runDecode]
    split
    · exact recorded_fail nofun nofun
    split
    · exact recorded_fail nofun nofun
    · exact decodeLoop_recorded s l 0 (startCursor s)

/-! ## The status -/

theorem ne_zero_of_recorded {c : BitVec 4} (h : c ∈ recordedCodes) : c ≠ 0#4 := by
  rintro rfl
  exact absurd h (by decide)

/-- No error and no completion: the status that acceptance and reset leave (R120, R261). -/
structure Quiet (s : State) : Prop where
  done : s.done = false
  err : s.err = false
  errCode : s.errCode = 0#4
  errInfo0 : s.errInfo0 = 0#32
  errInfo1 : s.errInfo1 = 0#32

theorem Quiet.statusOk {s : State} (h : Quiet s) : StatusOk s := by
  simp [StatusOk, h.done, h.err, h.errCode, h.errInfo0, h.errInfo1]

/-- While busy the status is quiet (R120). -/
theorem StatusOk.quiet {s : State} (h : StatusOk s) (hbusy : s.busy = true) : Quiet s := by
  obtain ⟨-, hrun, -, -, hinfo, -⟩ := h
  obtain ⟨hdone, herr, hcode⟩ := hrun hbusy
  exact ⟨hdone, herr, hcode, (hinfo hcode).1, (hinfo hcode).2⟩

/-- Recording an ending over a quiet status (R123, R233). -/
theorem Quiet.finish {s : State} (h : Quiet s) {e : Ending} (he : e.Recorded) : StatusOk (finish e s) := by
  cases e with
  | succeed => simp [StatusOk, h.err, h.errCode, h.errInfo0, h.errInfo1]
  | fail e i0 i1 =>
    have hne := ne_zero_of_recorded he
    have hmem : e.code ∈ recordedCodes := he
    simp [StatusOk, h.done, hne, hmem]

/-- Clearing bits of `DONE`, `ERR` and `OVR` (R237). -/
theorem StatusOk.acknowledge {s : State} (h : StatusOk s) (v : Word) : StatusOk (acknowledge v s) := by
  obtain ⟨hboth, hrun, hdone, herr, hinfo, hrec⟩ := h
  refine ⟨fun hb => hboth ?_, fun hb => ?_, fun hd => hdone ?_, fun he => herr ?_, hinfo, hrec⟩
  · simp only [acknowledge_done, acknowledge_err, Bool.and_eq_true] at hb
    exact ⟨hb.1.1, hb.2.1⟩
  · obtain ⟨hd, he, hcode⟩ := hrun hb
    exact ⟨by simp [hd], by simp [he], hcode⟩
  · exact (Bool.and_eq_true_iff.1 hd).1
  · exact (Bool.and_eq_true_iff.1 he).1

theorem acceptCommon_quiet (w : Word) (s : State) : Quiet (acceptCommon w s) := ⟨rfl, rfl, rfl, rfl, rfl⟩

theorem accept_quiet (w : Word) (s : State) : Quiet (accept w s) := by
  obtain ⟨i, -, e⟩ | ⟨-, e⟩ := accept_cases w s <;> rw [e]
  · cases i <;> exact ⟨rfl, rfl, rfl, rfl, rfl⟩
  · exact acceptCommon_quiet w s

theorem softReset_quiet (s : State) : Quiet (softReset s) := ⟨rfl, rfl, rfl, rfl, rfl⟩

theorem hardwareReset_quiet (f : Option Access) (s : State) : Quiet (hardwareReset f s) :=
  ⟨rfl, rfl, rfl, rfl, rfl⟩

theorem runCommand_quiet (i : Instr) {s : State} (h : Quiet s) : Quiet (runCommand i s).1 := by
  obtain ⟨hdone, herr, hcode, hinfo0, hinfo1⟩ := runCommand_keepsStatus i s
  exact ⟨hdone.trans h.done, herr.trans h.err, hcode.trans h.errCode, hinfo0.trans h.errInfo0,
    hinfo1.trans h.errInfo1⟩

theorem StepCase.statusOk {s t : State} (h : StepCase s t) (hs : StatusOk s) : StatusOk t := by
  cases h with
  | respond | overrun | writeIe | writeFreq | writeSymbuf | writeBitbuf | idle => exact hs
  | acknowledge v => exact hs.acknowledge v
  | softReset => exact (softReset_quiet s.popped).statusOk
  | hardwareReset => exact (hardwareReset_quiet _ s.popped).statusOk
  | @accept w => exact (accept_quiet w s.popped).statusOk
  | @complete i _ hbusy =>
    have hquiet : Quiet s.popped := StatusOk.quiet (s := s.popped) hs hbusy
    exact (runCommand_quiet i hquiet).finish (runCommand_recorded i s.popped)
  | illegal hbusy =>
    have hquiet : Quiet s.popped := StatusOk.quiet (s := s.popped) hs hbusy
    exact hquiet.finish (e := .fail .illegalCommand s.pending 0#32)
      (recorded_fail nofun nofun)

/-- Settles O57: acceptance and reset leave a quiet status, and completion records over a quiet one. -/
theorem stepKeepsStatusConsistent : Obligations.StepKeepsStatusConsistent := by
  unfold Obligations.StepKeepsStatusConsistent
  exact fun s t hs hstep => (StepCase.of_step hstep).statusOk hs

end Sys2Proof.Machine
end

section
/-! PROOFS. BUILD makes a valid tree (spec 41_tree_builder.md R150 to R153; 10_state.md R44): the leaves are written,
one merge keeps an invariant of the priority collection and the nodes made so far, and the loop ends with one id. -/

namespace Sys2Proof.Machine

/-! ## The leaves -/

/-- The leaf that BUILD writes for the `i`-th present symbol (R150). -/
def leafOf (freq : Memory Word) (syms : List Nat) (i : Nat) : Node :=
  .leaf (freq.read (syms.getD i 0)) (BitVec.ofNat 8 (syms.getD i 0))

/-- Writing the leaves from id `i` on leaves the earlier nodes alone. -/
theorem read_writeLeaves_before (freq : Memory Word) (syms : List Nat) (i : Nat) (node : Memory Node) {j : Nat}
    (hj : j < i) : (writeLeaves freq syms i node).read j = node.read j := by
  induction syms generalizing i node with
  | nil => rfl
  | cons y syms ih => rw [writeLeaves, ih _ _ (by omega), Memory.read_write_other _ _ (by omega)]

theorem read_writeLeaves (freq : Memory Word) (syms : List Nat) (i : Nat) (node : Memory Node)
    (hfits : i + syms.length ≤ node.length) {k : Nat} (hk : k < syms.length) :
    (writeLeaves freq syms i node).read (i + k) = leafOf freq syms k := by
  induction syms generalizing i node k with
  | nil => simp at hk
  | cons y syms ih =>
    rw [List.length_cons] at hfits hk
    rw [writeLeaves]
    cases k with
    | zero =>
      rw [Nat.add_zero i, read_writeLeaves_before _ _ _ _ (Nat.lt_succ_self i),
        Memory.read_write_same _ (by omega)]
      rfl
    | succ k =>
      rw [← Nat.add_assoc, Nat.add_right_comm, ih (i + 1) _ (by simp; omega) (by omega)]
      rfl

theorem length_presentSymbols_le (freq : Memory Word) : (presentSymbols freq).length ≤ 256 := by
  have h := List.length_filter_le (fun y => decide (freq.read y ≠ 0#32)) (List.range numSymbols)
  rwa [List.length_range] at h

theorem mem_presentSymbols {freq : Memory Word} {y : Nat} :
    y ∈ presentSymbols freq ↔ y < 256 ∧ freq.read y ≠ 0#32 := by
  simp [presentSymbols, numSymbols]

theorem presentSymbols_pairwise (freq : Memory Word) : (presentSymbols freq).Pairwise (· < ·) :=
  List.pairwise_lt_range.filter _

/-- Absent symbols count 0, so the present ones have the whole sum. -/
theorem sum_presentSymbols (freq : Memory Word) :
    ((presentSymbols freq).map (fun y => (freq.read y).toNat)).sum = totalFreq freq := by
  unfold presentSymbols totalFreq
  induction List.range numSymbols with
  | nil => rfl
  | cons y ys ih => by_cases hy : freq.read y = 0#32 <;> simpa [hy] using ih

theorem totalFreq_eq_sum {freq : Memory Word} (h : freq.length = 256) :
    totalFreq freq = (freq.map BitVec.toNat).sum := by
  unfold totalFreq
  congr 1
  apply List.ext_getElem
  · simp [h, numSymbols]
  · intro y hy hy'
    have hy'' : y < freq.length := by simpa using hy'
    simp [Memory.read, hy'']

/-! ## One merge -/

theorem leastId_mem (node : Memory Node) (x : Nat) (xs : List Nat) : leastId node x xs ∈ x :: xs := by
  induction xs generalizing x with
  | nil => simp [leastId]
  | cons y ys ih =>
    rw [leastId]
    split
    · exact List.mem_cons_of_mem x (ih y)
    · obtain h | h := List.mem_cons.1 (ih x)
      · rw [h]
        exact List.mem_cons_self
      · exact List.mem_cons_of_mem x (List.mem_cons_of_mem y h)

theorem extractLeast_eq_none {node : Memory Node} {ids : List Nat} (h : extractLeast node ids = none) :
    ids = [] := by
  cases ids with
  | nil => rfl
  | cons x xs => cases h

theorem extractLeast_eq_some {node : Memory Node} {ids ids' : List Nat} {a : Nat}
    (h : extractLeast node ids = some (a, ids')) : a ∈ ids ∧ ids' = ids.erase a := by
  cases ids with
  | nil => cases h
  | cons x xs =>
    cases h
    exact ⟨leastId_mem node x xs, rfl⟩

/-- NODE memory after the merge of `a` and `b` into the node `next` (R150). -/
def mergeNodes (node : Memory Node) (a b next : Nat) : Memory Node :=
  node.write next (.internal ((node.read a).freq + (node.read b).freq) (BitVec.ofNat 9 a) (BitVec.ofNat 9 b))

@[simp] theorem length_mergeNodes (node : Memory Node) (a b next : Nat) :
    (mergeNodes node a b next).length = node.length := Memory.length_write _ _ _

theorem read_mergeNodes_old (node : Memory Node) (a b : Nat) {next j : Nat} (hj : j < next) :
    (mergeNodes node a b next).read j = node.read j := Memory.read_write_other _ _ hj.ne'

theorem read_mergeNodes_new {node : Memory Node} (a b : Nat) {next : Nat} (h : next < node.length) :
    (mergeNodes node a b next).read next =
      .internal ((node.read a).freq + (node.read b).freq) (BitVec.ofNat 9 a) (BitVec.ofNat 9 b) :=
  Memory.read_write_same _ h

/-- No merge happens only when fewer than two ids are left (R150). -/
theorem mergeOnce_eq_none {node : Memory Node} {ids : List Nat} {next : Nat}
    (h : mergeOnce node ids next = none) : ids.length ≤ 1 := by
  unfold mergeOnce at h
  split at h
  · next he => simp [extractLeast_eq_none he]
  · next he =>
    split at h
    · next he' =>
      obtain ⟨ha, hids⟩ := extractLeast_eq_some he
      have hlen := List.length_erase_of_mem ha
      rw [← hids, extractLeast_eq_none he', List.length_nil] at hlen
      omega
    · cases h

/-- A merge takes two ids out of the collection and puts the new node's in (R150). -/
theorem mergeOnce_eq_some {node node' : Memory Node} {ids ids' : List Nat} {next : Nat}
    (h : mergeOnce node ids next = some (node', ids')) :
    ∃ a b, a ∈ ids ∧ b ∈ ids.erase a ∧ node' = mergeNodes node a b next ∧
      ids' = (ids.erase a).erase b ++ [next] := by
  unfold mergeOnce at h
  split at h
  · cases h
  · next a ids₁ ha =>
    split at h
    · cases h
    · next b ids₂ hb =>
      obtain ⟨hmem_a, rfl⟩ := extractLeast_eq_some ha
      obtain ⟨hmem_b, rfl⟩ := extractLeast_eq_some hb
      cases h
      exact ⟨a, b, hmem_a, hmem_b, rfl, rfl⟩

/-! ## Parents -/

/-- How many of the nodes from `n` up to below `m` have node `i` as a child. -/
def childCount (node : Memory Node) (n m i : Nat) : Nat :=
  ((List.range m).filter (fun j => decide (n ≤ j) &&
    (decide ((node.read j).left.toNat = i) || decide ((node.read j).right.toNat = i)))).length

theorem parentCount_eq_childCount (node : Memory Node) (n i : Nat) :
    parentCount node n i = childCount node n (2 * n - 1) i := rfl

theorem childCount_succ (node : Memory Node) {n m : Nat} (hm : n ≤ m) (i : Nat) :
    childCount node n (m + 1) i = childCount node n m i +
      if (node.read m).left.toNat = i ∨ (node.read m).right.toNat = i then 1 else 0 := by
  simp only [childCount, List.range_succ, List.filter_append, List.length_append]
  split
  · next h => simp [hm, h]
  · next h => simp [h]

theorem childCount_congr {node node' : Memory Node} {n m : Nat} (h : ∀ j < m, node'.read j = node.read j)
    (i : Nat) : childCount node' n m i = childCount node n m i := by
  unfold childCount
  congr 1
  exact List.filter_congr fun j hj => by rw [h j (List.mem_range.1 hj)]

theorem childCount_eq_zero {node : Memory Node} {n m i : Nat}
    (h : ∀ j < m, n ≤ j → (node.read j).left.toNat ≠ i ∧ (node.read j).right.toNat ≠ i) :
    childCount node n m i = 0 := by
  simpa [childCount] using h

/-! ## The invariant of the loop -/

/-- The sum of the frequencies of the listed nodes. -/
def freqSum (node : Memory Node) (ids : List Nat) : Nat := (ids.map (fun x => (node.read x).freq.toNat)).sum

theorem freqSum_erase (node : Memory Node) {ids : List Nat} {a : Nat} (ha : a ∈ ids) :
    (node.read a).freq.toNat + freqSum node (ids.erase a) = freqSum node ids :=
  List.sum_map_erase (fun x => (node.read x).freq.toNat) ha

theorem freqSum_append_singleton (node : Memory Node) (ids : List Nat) (x : Nat) :
    freqSum node (ids ++ [x]) = freqSum node ids + (node.read x).freq.toNat := by
  simp [freqSum]

theorem freqSum_congr {node node' : Memory Node} {ids : List Nat} (h : ∀ x ∈ ids, node'.read x = node.read x) :
    freqSum node' ids = freqSum node ids := by
  unfold freqSum
  rw [List.map_congr_left fun x hx => by rw [h x hx]]

/-- Node `i` is an internal node as R44 has it. -/
def InternalOk (node : Memory Node) (i : Nat) : Prop :=
  (node.read i).isLeaf = false ∧
  (node.read i).left.toNat < i ∧ (node.read i).right.toNat < i ∧ (node.read i).left ≠ (node.read i).right ∧
  (node.read i).freq.toNat =
    (node.read (node.read i).left.toNat).freq.toNat + (node.read (node.read i).right.toNat).freq.toNat

/-- Whether a node is a sound internal node rests on the nodes up to it. -/
theorem InternalOk.congr {node node' : Memory Node} {i : Nat} (h : ∀ j ≤ i, node'.read j = node.read j)
    (hi : InternalOk node i) : InternalOk node' i := by
  obtain ⟨hleaf, hl, hr, hne, hsum⟩ := hi
  unfold InternalOk
  rw [h i (Nat.le_refl i), h _ hl.le, h _ hr.le]
  exact ⟨hleaf, hl, hr, hne, hsum⟩

/-- What holds while the ids of `n` leaves are merged, with `next` the next id (R150, R153): the collection holds
`2n - next` earlier ids, those of no parent, whose frequencies have the whole sum; every other earlier node has one
parent, and the internal nodes are sound. -/
structure Merging (n total : Nat) (leaf : Nat → Node) (node : Memory Node) (ids : List Nat) (next : Nat) :
    Prop where
  size : node.length = 511
  leavesFit : n ≤ 256
  sumFits : total < 2 ^ 32
  count : ids.length + next = 2 * n
  leavesDone : n ≤ next
  last : next - 1 ∈ ids
  below : ∀ x ∈ ids, x < next
  nodup : ids.Nodup
  sum : freqSum node ids = total
  leaves : ∀ i < n, node.read i = leaf i
  internal : ∀ i < next, n ≤ i → InternalOk node i
  parents : ∀ i < next, childCount node n next i = if i ∈ ids then 0 else 1

section
variable {n total : Nat} {leaf : Nat → Node} {node : Memory Node} {ids : List Nat} {next : Nat}

theorem mem_erase_erase {a b : Nat} (h : ids.Nodup) (i : Nat) :
    i ∈ (ids.erase a).erase b ↔ i ≠ b ∧ i ≠ a ∧ i ∈ ids := by
  rw [(h.erase a).mem_erase_iff, h.mem_erase_iff]

section
variable {a b : Nat} (h : Merging n total leaf node ids next) (ha : a ∈ ids) (hb : b ∈ ids.erase a)
include h ha hb

/-- With two ids to merge there is room for the new node. -/
theorem Merging.room : next < 511 := by
  have hlen_a := List.length_erase_add_one ha
  have hlen_b := List.length_erase_add_one hb
  have hcount := h.count
  have hfit := h.leavesFit
  omega

/-- Both ids are earlier ids, and their numbers fit a node id. -/
theorem Merging.children : a < next ∧ b < next ∧ a ≠ b ∧ (BitVec.ofNat 9 a).toNat = a ∧
    (BitVec.ofNat 9 b).toNat = b := by
  have hroom := h.room ha hb
  have hlt_a := h.below a ha
  have hlt_b := h.below b (List.mem_of_mem_erase hb)
  exact ⟨hlt_a, hlt_b, fun e => h.nodup.not_mem_erase (e ▸ hb), Nat.mod_eq_of_lt (by omega),
    Nat.mod_eq_of_lt (by omega)⟩

/-- The frequencies of the two ids and of the rest have the whole sum. -/
theorem Merging.sum_split :
    (node.read a).freq.toNat + ((node.read b).freq.toNat + freqSum node ((ids.erase a).erase b)) = total := by
  rw [freqSum_erase node hb, freqSum_erase node ha, h.sum]

/-- The new node's frequency does not overflow. -/
theorem Merging.toNat_add_freq : ((node.read a).freq + (node.read b).freq).toNat =
    (node.read a).freq.toNat + (node.read b).freq.toNat := by
  have hsplit := h.sum_split ha hb
  have hfits := h.sumFits
  exact BitVec.toNat_add_of_lt (by omega)

theorem Merging.read_new : (mergeNodes node a b next).read next =
    .internal ((node.read a).freq + (node.read b).freq) (BitVec.ofNat 9 a) (BitVec.ofNat 9 b) :=
  read_mergeNodes_new a b (h.size ▸ h.room ha hb)

/-- The internal nodes stay sound, and the new one is: its children are earlier and differ, its frequency is
their sum. -/
theorem Merging.internal_merge : ∀ i < next + 1, n ≤ i → InternalOk (mergeNodes node a b next) i := by
  intro i hi hni
  obtain hlt | rfl := Nat.lt_succ_iff_lt_or_eq.1 hi
  · exact (h.internal i hlt hni).congr fun j hj => read_mergeNodes_old node a b (by omega)
  · obtain ⟨hlt_a, hlt_b, hab, hid_a, hid_b⟩ := h.children ha hb
    simp only [InternalOk, h.read_new ha hb, Node.left, Node.right, Node.freq, hid_a, hid_b,
      read_mergeNodes_old node a b hlt_a, read_mergeNodes_old node a b hlt_b]
    exact ⟨rfl, hlt_a, hlt_b, fun e => hab (by rw [← hid_a, e, hid_b]), h.toNat_add_freq ha hb⟩

/-- The new id takes the place of the two, with their sum. -/
theorem Merging.sum_merge : freqSum (mergeNodes node a b next) ((ids.erase a).erase b ++ [next]) = total := by
  have hold : ∀ x ∈ (ids.erase a).erase b, (mergeNodes node a b next).read x = node.read x := fun x hx =>
    read_mergeNodes_old node a b (h.below x ((mem_erase_erase h.nodup x).1 hx).2.2)
  have hsplit := h.sum_split ha hb
  rw [freqSum_append_singleton, freqSum_congr hold, h.read_new ha hb, Node.freq, h.toNat_add_freq ha hb]
  omega

/-- The two ids have the new node as their parent; the new node has none. -/
theorem Merging.parents_merge : ∀ i < next + 1, childCount (mergeNodes node a b next) n (next + 1) i =
    if i ∈ (ids.erase a).erase b ++ [next] then 0 else 1 := by
  intro i hi
  obtain hlt | rfl := Nat.lt_succ_iff_lt_or_eq.1 hi
  · obtain ⟨-, -, -, hid_a, hid_b⟩ := h.children ha hb
    have hmem : i ∈ (ids.erase a).erase b ++ [next] ↔ i ≠ b ∧ i ≠ a ∧ i ∈ ids := by
      rw [List.mem_append, mem_erase_erase h.nodup, List.mem_singleton, or_iff_left hlt.ne]
    rw [childCount_succ _ h.leavesDone, childCount_congr fun j hj => read_mergeNodes_old node a b hj,
      h.parents i hlt, h.read_new ha hb]
    simp only [Node.left, Node.right, hid_a, hid_b, hmem]
    by_cases hia : a = i
    · subst hia
      simp [ha]
    · by_cases hib : b = i
      · subst hib
        simp [List.mem_of_mem_erase hb]
      · simp [hia, hib, Ne.symm hia, Ne.symm hib]
  · rw [if_pos (by simp)]
    refine childCount_eq_zero fun j hj hnj => ?_
    obtain ⟨-, hl, hr, -⟩ := h.internal_merge ha hb j hj hnj
    exact ⟨by omega, by omega⟩

end

/-- One merge keeps the invariant. -/
theorem Merging.step (h : Merging n total leaf node ids next) {node' : Memory Node} {ids' : List Nat}
    (hm : mergeOnce node ids next = some (node', ids')) :
    Merging n total leaf node' ids' (next + 1) ∧ ids'.length + 1 = ids.length := by
  obtain ⟨a, b, ha, hb, rfl, rfl⟩ := mergeOnce_eq_some hm
  have hlen : ((ids.erase a).erase b ++ [next]).length + 1 = ids.length := by
    rw [List.length_append, List.length_singleton, List.length_erase_add_one hb, List.length_erase_add_one ha]
  have hbelow : ∀ x ∈ (ids.erase a).erase b, x < next := fun x hx =>
    h.below x ((mem_erase_erase h.nodup x).1 hx).2.2
  refine ⟨?_, hlen⟩
  exact
    { size := (length_mergeNodes node a b next).trans h.size
      leavesFit := h.leavesFit
      sumFits := h.sumFits
      count := by
        have := h.count
        omega
      leavesDone := Nat.le_succ_of_le h.leavesDone
      last := by simp
      below := by
        intro x hx
        obtain hx | hx := List.mem_append.1 hx
        · exact Nat.lt_succ_of_lt (hbelow x hx)
        · rw [List.mem_singleton.1 hx]
          exact Nat.lt_succ_self next
      nodup := by
        simpa [List.nodup_append] using ⟨(h.nodup.erase a).erase b, fun x hx => (hbelow x hx).ne⟩
      sum := h.sum_merge ha hb
      leaves := fun i hi =>
        (read_mergeNodes_old node a b (Nat.lt_of_lt_of_le hi h.leavesDone)).trans (h.leaves i hi)
      internal := h.internal_merge ha hb
      parents := h.parents_merge ha hb }

/-- The loop keeps the invariant and ends with one id (R150, R153). -/
theorem Merging.of_mergeAll (rounds : Nat) (h : Merging n total leaf node ids next) (hr : ids.length ≤ rounds + 1) :
    Merging n total leaf (mergeAll rounds node ids next).node (mergeAll rounds node ids next).ids
        (mergeAll rounds node ids next).next ∧
      (mergeAll rounds node ids next).ids.length = 1 := by
  have hpos : 0 < ids.length := List.length_pos_of_mem h.last
  induction rounds generalizing node ids next with
  | zero => exact ⟨h, by change ids.length = 1; omega⟩
  | succ rounds ih =>
    rw [mergeAll]
    cases hm : mergeOnce node ids next with
    | none =>
      have := mergeOnce_eq_none hm
      exact ⟨h, by change ids.length = 1; omega⟩
    | some p =>
      obtain ⟨h', hlen⟩ := h.step hm
      exact ih h' (by omega) (List.length_pos_of_mem h'.last)

/-! ## The end of the loop -/

/-- The last id is the root's: `2n - 2`, and `2n - 1` nodes are made (R153). -/
theorem Merging.root (h : Merging n total leaf node ids next) (hone : ids.length = 1) :
    next = 2 * n - 1 ∧ ids = [2 * n - 2] ∧ 1 ≤ n := by
  have hcount := h.count
  have hdone := h.leavesDone
  obtain ⟨x, rfl⟩ := List.length_eq_one_iff.1 hone
  have hlast := List.mem_singleton.1 h.last
  refine ⟨by omega, ?_, by omega⟩
  rw [← hlast]
  congr 1
  omega

theorem Merging.root_freq (h : Merging n total leaf node ids next) (hone : ids.length = 1) :
    (node.read (2 * n - 2)).freq.toNat = total := by
  have hsum := h.sum
  rw [(h.root hone).2.1] at hsum
  simpa [freqSum] using hsum

/-- The tree is valid if its leaves have ascending symbols (R44). -/
theorem Merging.validTree (h : Merging n total leaf node ids next) (hone : ids.length = 1)
    (hleaf : ∀ i < n, (leaf i).isLeaf = true)
    (hasc : ∀ j < n, ∀ i < j, (leaf i).sym.toNat < (leaf j).sym.toNat) : ValidTree node n := by
  obtain ⟨rfl, rfl, hpos⟩ := h.root hone
  refine ⟨fun i hi => ?_, fun j hj i hi => ?_, h.internal, fun i hi => ?_⟩
  · rw [h.leaves i hi]
    exact hleaf i hi
  · rw [h.leaves i (by omega), h.leaves j hj]
    exact hasc j hj i hi
  · rw [parentCount_eq_childCount, h.parents i (by omega), if_neg]
    rw [List.mem_singleton]
    omega

end

/-! ## BUILD -/

/-- The invariant holds once the leaves are written, with every leaf's id in the collection (R150). -/
theorem merging_init {freq : Memory Word} {node : Memory Node} (hlen : node.length = 511)
    (hne : presentSymbols freq ≠ []) (hsum : totalFreq freq ≤ 0xFFFFFFFF) :
    Merging (presentSymbols freq).length (totalFreq freq) (leafOf freq (presentSymbols freq))
      (writeLeaves freq (presentSymbols freq) 0 node) (List.range (presentSymbols freq).length)
      (presentSymbols freq).length := by
  have hpos := List.length_pos_of_ne_nil hne
  have hfit := length_presentSymbols_le freq
  have hleaves : ∀ i < (presentSymbols freq).length,
      (writeLeaves freq (presentSymbols freq) 0 node).read i = leafOf freq (presentSymbols freq) i := by
    intro i hi
    simpa using read_writeLeaves freq (presentSymbols freq) 0 node (by omega) hi
  exact
    { size := by rw [length_writeLeaves, hlen]
      leavesFit := hfit
      sumFits := by omega
      count := by rw [List.length_range]; omega
      leavesDone := Nat.le_refl _
      last := by rw [List.mem_range]; omega
      below := fun x hx => List.mem_range.1 hx
      nodup := List.nodup_range
      sum := by
        rw [← sum_presentSymbols, freqSum]
        congr 1
        apply List.ext_getElem (by simp)
        intro i hi hi'
        have hi'' : i < (presentSymbols freq).length := by simpa using hi
        simp [hleaves i hi'', leafOf, Node.freq, hi'']
      leaves := hleaves
      internal := fun i hi hni => by omega
      parents := fun i hi => by
        rw [if_pos (List.mem_range.2 hi)]
        exact childCount_eq_zero fun j hj hnj => by omega }

/-- The leaves that BUILD writes are leaves with ascending symbols (R150). -/
theorem leafOf_ascending (freq : Memory Word) :
    ∀ j < (presentSymbols freq).length, ∀ i < j,
      (leafOf freq (presentSymbols freq) i).sym.toNat < (leafOf freq (presentSymbols freq) j).sym.toNat := by
  intro j hj i hi
  have hlt := List.pairwise_iff_getElem.1 (presentSymbols_pairwise freq) i j (by omega) hj hi
  have hbound := (mem_presentSymbols.1 (List.getElem_mem hj)).1
  have hi' : i < (presentSymbols freq).length := by omega
  simp only [leafOf, Node.sym, List.getD_eq_getElem _ _ hi', List.getD_eq_getElem _ _ hj, BitVec.toNat_ofNat]
  omega

/-- What BUILD makes of a table that is not empty and fits (R150, R152, R153). -/
theorem buildTree_spec {freq : Memory Word} {node : Memory Node} (hlen : node.length = 511)
    (hne : presentSymbols freq ≠ []) (hsum : totalFreq freq ≤ 0xFFFFFFFF) {n : Nat}
    (hn : n = (presentSymbols freq).length) :
    (buildTree freq node).next = 2 * n - 1 ∧ (buildTree freq node).ids = [2 * n - 2] ∧ 1 ≤ n ∧ n ≤ 256 ∧
      (∀ i < n, (buildTree freq node).node.read i = leafOf freq (presentSymbols freq) i) ∧
      ValidTree (buildTree freq node).node n ∧
      ((buildTree freq node).node.read (2 * n - 2)).freq.toNat = totalFreq freq := by
  subst hn
  obtain ⟨hm, hone⟩ := (merging_init hlen hne hsum).of_mergeAll (presentSymbols freq).length
    (by rw [List.length_range]; omega)
  obtain ⟨hnext, hids, hpos⟩ := hm.root hone
  exact ⟨hnext, hids, hpos, hm.leavesFit, hm.leaves,
    hm.validTree hone (fun _ _ => rfl) (leafOf_ascending freq), hm.root_freq hone⟩

/-- The present symbols as bytes are the present symbols as numbers. -/
theorem map_toNat_eq_presentSymbols {freq : Memory Word} {syms : List Byte}
    (hasc : syms.Pairwise (fun a b => a.toNat < b.toNat)) (hmem : ∀ y : Byte, y ∈ syms ↔ freq.read y.toNat ≠ 0#32) :
    syms.map BitVec.toNat = presentSymbols freq := by
  refine List.Perm.eq_of_pairwise' (r := (· < ·)) ?_ (presentSymbols_pairwise freq) ?_
  · exact List.pairwise_map.2 hasc
  · refine (List.perm_ext_iff_of_nodup ?_ (presentSymbols_pairwise freq).nodup).2 fun y => ?_
    · exact (List.pairwise_map.2 hasc).nodup
    · rw [List.mem_map, mem_presentSymbols]
      constructor
      · rintro ⟨b, hb, rfl⟩
        exact ⟨b.isLt, (hmem b).1 hb⟩
      · rintro ⟨hy, hf⟩
        have hy' : (BitVec.ofNat 8 y).toNat = y := Nat.mod_eq_of_lt hy
        exact ⟨BitVec.ofNat 8 y, (hmem _).2 (by rwa [hy']), hy'⟩

/-- Settles O33: the loop of merges keeps `Merging` and ends with the root's id alone. -/
theorem buildCompletes : Obligations.BuildCompletes := by
  unfold Obligations.BuildCompletes
  intro s syms hwf hasc hmem hne hsum
  obtain ⟨-, hfreq, hnode, -⟩ := (State.memoryWf_iff s).1 hwf
  have hsyms := map_toNat_eq_presentSymbols hasc hmem
  have hpresent : presentSymbols s.freq ≠ [] := by simpa [← hsyms] using hne
  rw [← totalFreq_eq_sum hfreq] at hsum ⊢
  obtain ⟨hnext, hids, -, -, hleaves, htree, hroot⟩ :=
    buildTree_spec (node := s.node) hnode hpresent hsum (n := syms.length) (by rw [← hsyms, List.length_map])
  refine ⟨(buildTree s.freq s.node).node, ?_, (length_buildTree _ _).trans hnode, fun i hi => ?_, htree, hroot⟩
  · have hrun : runBuild s = (installTree (buildTree s.freq s.node) s, .succeed) := by
      rw [runBuild, if_neg hpresent, if_neg (Nat.not_lt.2 hsum)]
    rw [exec, execBuild, hrun, installTree, hnext, hids]
    rfl
  · rw [hleaves i hi, leafOf, ← hsyms]
    simp [hi]

end Sys2Proof.Machine
end

section
/-! PROOFS. What GENCODES leaves (spec 42_code_table.md R170 to R172): generating the codes of a tree again gives the same
table, and on a valid tree LEN is the length of BITS. Then the bounds of the result registers (10_state.md R39, R40). -/

namespace Sys2Proof.Machine

/-! ## Generating again -/

theorem read_clearedCodes (code : Memory CodeEntry) (y : Nat) :
    (clearedCodes code).read y = { code.read y with valid := false } := by
  simp only [clearedCodes, Memory.read, List.getD_eq_getElem?_getD, List.getElem?_map]
  cases code[y]? <;> rfl

/-- At entry `y` the function either leaves one entry, whatever the memory held, or keeps what it held. -/
def SetsOrKeeps (f : Memory CodeEntry → Memory CodeEntry) (y : Nat) : Prop :=
  (∃ e, ∀ code, y < code.length → (f code).read y = e) ∨ ∀ code, (f code).read y = code.read y

theorem SetsOrKeeps.comp {f g : Memory CodeEntry → Memory CodeEntry} {y : Nat} (hf : SetsOrKeeps f y)
    (hg : SetsOrKeeps g y) (hlen : ∀ code, (f code).length = code.length) :
    SetsOrKeeps (fun code => g (f code)) y := by
  obtain ⟨e, he⟩ | hkeep := hg
  · exact .inl ⟨e, fun code hy => he _ (by rwa [hlen])⟩
  · obtain ⟨e, he⟩ | hkeep' := hf
    · exact .inl ⟨e, fun code hy => (hkeep _).trans (he code hy)⟩
    · exact .inr fun code => (hkeep _).trans (hkeep' code)

theorem recordCode_setsOrKeeps (sym : Byte) (p : BitString) (y : Nat) : SetsOrKeeps (recordCode sym p) y := by
  by_cases hy : sym.toNat = y
  · subst hy
    exact .inl ⟨_, fun code h => Memory.read_write_same _ h⟩
  · exact .inr fun code => Memory.read_write_other _ _ hy

theorem walk_succ_leaf {node : Memory Node} {x : NodeId} {f : Word} {sym : Byte}
    (hx : node.read x.toNat = .leaf f sym) (levels : Nat) (p : BitString) :
    walk node (levels + 1) x p = recordCode sym p := by
  funext code
  rw [walk, hx]

theorem walk_succ_internal {node : Memory Node} {x : NodeId} {f : Word} {l r : NodeId}
    (hx : node.read x.toNat = .internal f l r) (levels : Nat) (p : BitString) :
    walk node (levels + 1) x p =
      fun code => walk node levels r (p ++ [true]) (walk node levels l (p ++ [false]) code) := by
  funext code
  rw [walk, hx]

theorem walk_setsOrKeeps (node : Memory Node) (levels : Nat) (x : NodeId) (p : BitString) (y : Nat) :
    SetsOrKeeps (walk node levels x p) y := by
  induction levels generalizing x p with
  | zero => exact .inr fun code => rfl
  | succ levels ih =>
    cases hx : node.read x.toNat with
    | leaf f sym =>
      rw [walk_succ_leaf hx]
      exact recordCode_setsOrKeeps sym p y
    | internal f l r =>
      rw [walk_succ_internal hx]
      exact (ih l _).comp (ih r _) (length_walk node levels l _)

/-- GENCODES records codes over a cleared table, entry by entry. -/
theorem generateCodes_eq_record (node : Memory Node) (root : NodeId) :
    ∃ record : Memory CodeEntry → Memory CodeEntry, (∀ y, SetsOrKeeps record y) ∧
      ∀ code, generateCodes node root code = record (clearedCodes code) := by
  unfold generateCodes
  cases node.read root.toNat with
  | leaf f sym => exact ⟨_, recordCode_setsOrKeeps sym [false], fun code => rfl⟩
  | internal f l r => exact ⟨_, walk_setsOrKeeps node nodeMax root [], fun code => rfl⟩

/-- Generating the codes of a tree again gives the same table. -/
theorem generateCodes_idempotent (node : Memory Node) (root : NodeId) (code : Memory CodeEntry) :
    generateCodes node root (generateCodes node root code) = generateCodes node root code := by
  obtain ⟨record, hrecord, hgen⟩ := generateCodes_eq_record node root
  apply Memory.ext_read (by simp)
  intro y hy
  simp only [length_generateCodes] at hy
  obtain ⟨e, he⟩ | hkeep := hrecord y
  · have hread (c : Memory CodeEntry) (hc : c.length = code.length) : (generateCodes node root c).read y = e := by
      rw [hgen, he _ (by rw [length_clearedCodes, hc]; exact hy)]
    rw [hread _ (length_generateCodes node root code), hread code rfl]
  · have hread (c : Memory CodeEntry) :
        (generateCodes node root c).read y = { c.read y with valid := false } := by
      rw [hgen, hkeep, read_clearedCodes]
    rw [hread, hread]

/-! ## LEN is the length of BITS -/

/-- Every symbol that has a code has its length in LEN. -/
def LenIsLength (code : Memory CodeEntry) : Prop :=
  ∀ y, (code.read y).valid = true → (code.read y).bits.length = (code.read y).len.toNat

theorem clearedCodes_lenIsLength (code : Memory CodeEntry) : LenIsLength (clearedCodes code) := by
  intro y hy
  simp [read_clearedCodes] at hy

theorem lenIsLength_recordCode {code : Memory CodeEntry} (h : LenIsLength code) (sym : Byte) {p : BitString}
    (hp : p.length ≤ 255) : LenIsLength (recordCode sym p code) := by
  intro y
  by_cases hy : sym.toNat = y
  · by_cases hlt : y < code.length
    · subst hy
      rw [recordCode, Memory.read_write_same _ hlt]
      intro _
      exact (Nat.mod_eq_of_lt (show p.length < 256 by omega)).symm
    · rw [Memory.read, List.getD_eq_default _ _ (by simpa using hlt)]
      nofun
  · rw [recordCode, Memory.read_write_other _ _ hy]
    exact h y

/-- On a valid tree the ids fall along a path, so that no path is longer than the tree has internal nodes. -/
theorem lenIsLength_walk {node : Memory Node} {n : Nat} (htree : ValidTree node n) (hpos : 1 ≤ n)
    (hn : n ≤ 256) {levels : Nat} {x : NodeId} {p : BitString} {code : Memory CodeEntry} (h : LenIsLength code)
    (hp : p.length + max x.toNat (n - 1) ≤ 2 * n - 2) : LenIsLength (walk node levels x p code) := by
  induction levels generalizing x p code with
  | zero => exact h
  | succ levels ih =>
    obtain ⟨hleaf, -, hinternal, -⟩ := htree
    cases hx : node.read x.toNat with
    | leaf f sym =>
      rw [walk_succ_leaf hx]
      exact lenIsLength_recordCode h sym (by omega)
    | internal f l r =>
      rw [walk_succ_internal hx]
      have hxn : n ≤ x.toNat := by
        by_contra hlt
        have := hleaf x.toNat (by omega)
        rw [hx] at this
        cases this
      obtain ⟨-, hl, hr, -⟩ := hinternal x.toNat (by omega) hxn
      rw [hx, Node.left] at hl
      rw [hx, Node.right] at hr
      exact ih (ih h (by simp; omega)) (by simp; omega)

theorem generateCodes_lenIsLength {node : Memory Node} {n : Nat} (htree : ValidTree node n) (hpos : 1 ≤ n)
    (hn : n ≤ 256) {root : NodeId} (hroot : root.toNat = 2 * n - 2) (code : Memory CodeEntry) :
    LenIsLength (generateCodes node root code) := by
  have hclear := clearedCodes_lenIsLength code
  unfold generateCodes
  cases node.read root.toNat with
  | leaf f sym => exact lenIsLength_recordCode hclear sym (by simp)
  | internal f l r => exact lenIsLength_walk htree hpos hn hclear (by simp; omega)

/-- While the codes are valid, every LEN is the length of its BITS (R35, R36). -/
theorem CodesOk.lenIsLength {s : State} (h : CodesOk s) (htree : TreeOk s) (hv : s.codesValid = true) :
    LenIsLength s.code := by
  obtain ⟨hcount, hgen⟩ := h hv
  obtain ⟨hpos, hn, -, hroot, hvalid⟩ := htree.2 hcount
  rw [← hgen]
  exact generateCodes_lenIsLength hvalid hpos hn hroot s.code

/-! ## The result registers -/

/-- The stream never grows beyond the bit buffer (R190). -/
theorem length_encodeLoop_le {s : State} (h : LenIsLength s.code) (left i : Nat) {stream : BitString}
    (hs : stream.length ≤ s.cfg.bitcap) : (encodeLoop s left i stream).stream.length ≤ s.cfg.bitcap := by
  induction left generalizing i stream with
  | zero => exact hs
  | succ left ih =>
    rw [encodeLoop]
    split
    · exact hs
    next hv =>
    split
    · exact hs
    next hfits =>
    have hlen := h (s.symbuf.read i).toNat (by simpa using hv)
    exact ih _ (by rw [List.length_append]; omega)

theorem emit_count_le {depth k : Nat} {y : Byte} {c c' : Cursor} (h : emit depth y k c = .ok c')
    (hc : c.count ≤ depth) : c'.count ≤ depth := by
  unfold emit at h
  split at h <;> cases h
  change c.count + 1 ≤ depth
  omega

theorem decodeBit_count_le {s : State} {k : Nat} {c c' : Cursor} (h : decodeBit s k c = .ok c')
    (hc : c.count ≤ s.cfg.symbufDepth) : c'.count ≤ s.cfg.symbufDepth := by
  unfold decodeBit at h
  split at h
  · unfold decodeLeafBit at h
    split at h
    · cases h
    · exact emit_count_le h hc
  · simp only [decodeTreeBit] at h
    split at h
    · exact emit_count_le h hc
    · cases h
      exact hc

/-- No more symbols are emitted than the symbol buffer holds (R210). -/
theorem decodeLoop_count_le (s : State) (left k : Nat) {c : Cursor} (hc : c.count ≤ s.cfg.symbufDepth) :
    (decodeLoop s left k c).1.count ≤ s.cfg.symbufDepth := by
  induction left generalizing k c with
  | zero =>
    rw [decodeLoop]
    split <;> exact hc
  | succ left ih =>
    rw [decodeLoop]
    split
    · exact hc
    · next h => exact ih _ (decodeBit_count_le h hc)

theorem toNat_ofNat_le (w n : Nat) : (BitVec.ofNat w n).toNat ≤ n := by
  rw [BitVec.toNat_ofNat]
  exact Nat.mod_le _ _

/-- ENCODE leaves `ENC_BITLEN` as it was or in its bound (R39). -/
theorem runEncode_encBitLen_le {n : Nat} {s : State} (hcodes : s.codesValid = true → LenIsLength s.code)
    (h : s.encBitLen.toNat ≤ s.cfg.bitcap) : (runEncode n s).1.encBitLen.toNat ≤ s.cfg.bitcap := by
  unfold runEncode
  split
  · exact h
  split
  · exact h
  next hv =>
  unfold writeStream
  split
  · have hlen := hcodes (by simpa using hv)
    exact (toNat_ofNat_le _ _).trans (length_encodeLoop_le hlen n 0 (Nat.zero_le _))
  · exact h

/-- DECODE leaves `DEC_SYMCOUNT` as it was or in its bound (R40). -/
theorem runDecode_decSymCount_le (l : Nat) {s : State} (h : s.decSymCount.toNat ≤ s.cfg.symbufDepth) :
    (runDecode l s).1.decSymCount.toNat ≤ s.cfg.symbufDepth := by
  unfold runDecode
  split
  · exact h
  split
  · exact h
  unfold writeSymbols
  split
  · exact (toNat_ofNat_le _ _).trans (decodeLoop_count_le s l 0 (Nat.zero_le _))
  · exact h

end Sys2Proof.Machine
end

section
/-! PROOFS. The invariant of the machine (`Inv`): it holds at reset and every step keeps it (spec 10_state.md R28 to R44;
40_control.md R121). The parts about the tree, the codes, the results and the running command need each other. -/

namespace Sys2Proof.Machine

/-! ## What each part rests on -/

theorem TreeOk.congr {s t : State} (h : TreeOk s) (hcount : t.nodeCount = s.nodeCount) (hroot : t.root = s.root)
    (hnode : t.node = s.node) : TreeOk t := by
  simpa only [TreeOk, leafCount, hcount, hroot, hnode] using h

theorem CodesOk.congr {s t : State} (h : CodesOk s) (hvalid : t.codesValid = s.codesValid)
    (hcount : t.nodeCount = s.nodeCount) (hroot : t.root = s.root) (hnode : t.node = s.node)
    (hcode : t.code = s.code) : CodesOk t := by
  simpa only [CodesOk, hvalid, hcount, hroot, hnode, hcode] using h

theorem CodesOk.of_not_valid {s : State} (h : s.codesValid = false) : CodesOk s := by
  simp [CodesOk, h]

theorem TreeOk.of_cleared {s : State} (hcount : s.nodeCount = 0#10) (hroot : s.root = 0#9) : TreeOk s :=
  ⟨fun _ => hroot, fun h => absurd hcount h⟩

/-- The fields of the start effects, as the registers hold them while the command runs (R121). -/
def Started (i : Instr) (s : State) : Prop :=
  match i with
  | .nop => True
  | .clrfreq => True
  | .build => s.nodeCount = 0#10 ∧ s.root = 0#9 ∧ s.codesValid = false
  | .gencodes => s.codesValid = false
  | .encode _ => s.encBitLen = 0#32
  | .decode _ => s.decSymCount = 0#32

theorem started_startEffects (i : Instr) (s : State) : Started i (startEffects i s) := by
  cases i with
  | nop | clrfreq => trivial
  | build => exact ⟨rfl, rfl, rfl⟩
  | gencodes | encode | decode => rfl

theorem startEffects_of_started {i : Instr} {s : State} (h : Started i s) : startEffects i s = s := by
  cases i with
  | nop | clrfreq => rfl
  | build =>
    obtain ⟨hcount, hroot, hvalid⟩ := h
    rw [startEffects, State.withCodesValid, State.withTree, ← hcount, ← hroot, ← hvalid]
  | gencodes => rw [startEffects, State.withCodesValid, ← show s.codesValid = false from h]
  | encode n => rw [startEffects, State.withEncBitLen, ← show s.encBitLen = 0#32 from h]
  | decode l => rw [startEffects, State.withDecSymCount, ← show s.decSymCount = 0#32 from h]

/-- The start effects stand exactly when the registers hold what they write. -/
theorem startEffects_eq_self (i : Instr) (s : State) : startEffects i s = s ↔ Started i s :=
  ⟨fun h => h ▸ started_startEffects i s, startEffects_of_started⟩

/-- The parts of the invariant that the commands keep together, with the configuration fixed. -/
structure CommandInv (s : State) : Prop where
  started : StartedOk s
  tree : TreeOk s
  codes : CodesOk s
  results : ResultsOk s

/-- The command that runs has its start effects. -/
theorem CommandInv.startedBy {s : State} (h : CommandInv s) (hbusy : s.busy = true) {i : Instr}
    (hdec : decodeWord s.pending = .ok i) : Started i s :=
  (startEffects_eq_self i s).1 (h.started hbusy i (by simp [hdec, Except.toOption]))

/-- What these parts rest on: two states that agree on it are alike. -/
structure SameCommand (s t : State) : Prop where
  cfg : t.cfg = s.cfg
  busy : t.busy = s.busy
  pending : t.pending = s.pending
  codesValid : t.codesValid = s.codesValid
  nodeCount : t.nodeCount = s.nodeCount
  root : t.root = s.root
  encBitLen : t.encBitLen = s.encBitLen
  decSymCount : t.decSymCount = s.decSymCount
  node : t.node = s.node
  code : t.code = s.code

theorem CommandInv.congr {s t : State} (h : CommandInv s) (e : SameCommand s t) : CommandInv t where
  started := by
    intro hbusy i hi
    have hs := (startEffects_eq_self i s).1 (h.started (e.busy ▸ hbusy) i (e.pending ▸ hi))
    refine startEffects_of_started ?_
    cases i with
    | nop | clrfreq => trivial
    | build | gencodes | encode | decode =>
      simpa only [Started, e.nodeCount, e.root, e.codesValid, e.encBitLen, e.decSymCount] using hs
  tree := h.tree.congr e.nodeCount e.root e.node
  codes := h.codes.congr e.codesValid e.nodeCount e.root e.node e.code
  results := by simpa only [ResultsOk, e.encBitLen, e.decSymCount, e.cfg] using h.results

/-- The reset values of the registers meet it, whatever the memories hold (R261). -/
theorem CommandInv.of_resetValues {s : State} (hbusy : s.busy = false) (hvalid : s.codesValid = false)
    (hcount : s.nodeCount = 0#10) (hroot : s.root = 0#9) (henc : s.encBitLen = 0#32)
    (hdec : s.decSymCount = 0#32) : CommandInv s where
  started := by simp [StartedOk, hbusy]
  tree := .of_cleared hcount hroot
  codes := .of_not_valid hvalid
  results := by simp [ResultsOk, henc, hdec]

/-! ## Acceptance -/

theorem CommandInv.startEffects {s : State} (i : Instr) (hdec : decodeWord s.pending = .ok i) (htree : TreeOk s)
    (hcodes : CodesOk s) (hresults : ResultsOk s) : CommandInv (startEffects i s) where
  started := by
    intro _ j hj
    have hpending : (Machine.startEffects i s).pending = s.pending := by cases i <;> rfl
    rw [hpending, hdec] at hj
    obtain rfl : i = j := Option.some.inj hj
    exact startEffects_of_started (started_startEffects i s)
  tree := by
    cases i with
    | build => exact .of_cleared rfl rfl
    | nop | clrfreq | gencodes | encode | decode => exact htree
  codes := by
    cases i with
    | build | gencodes => exact .of_not_valid rfl
    | nop | clrfreq | encode | decode => exact hcodes
  results := by
    obtain ⟨henc, hsym⟩ := hresults
    cases i with
    | nop | clrfreq | build | gencodes => exact ⟨henc, hsym⟩
    | encode n => exact ⟨Nat.zero_le _, hsym⟩
    | decode l => exact ⟨henc, Nat.zero_le _⟩

theorem CommandInv.accept {s : State} (h : CommandInv s) (w : Word) : CommandInv (accept w s) := by
  cases hdec : decodeWord w with
  | ok i =>
    rw [accept_legal hdec]
    exact .startEffects i hdec h.tree h.codes h.results
  | error r =>
    rw [accept_illegal hdec]
    refine ⟨fun _ i hi => ?_, h.tree, h.codes, h.results⟩
    rw [acceptCommon_pending, hdec] at hi
    cases hi

/-! ## Completion -/

/-- The tree that BUILD installs is valid (R44, R150). -/
theorem installTree_treeOk {s : State} (hnode : s.node.length = 511) (hne : presentSymbols s.freq ≠ [])
    (hsum : totalFreq s.freq ≤ 0xFFFFFFFF) : TreeOk (installTree (buildTree s.freq s.node) s) := by
  obtain ⟨hnext, hids, hpos, hn, -, hvalid, -⟩ := buildTree_spec hnode hne hsum rfl
  generalize (presentSymbols s.freq).length = n at *
  have hcount : (installTree (buildTree s.freq s.node) s).nodeCount.toNat = 2 * n - 1 := by
    change (BitVec.ofNat 10 (buildTree s.freq s.node).next).toNat = _
    rw [hnext]
    exact Nat.mod_eq_of_lt (by omega)
  have hroot : (installTree (buildTree s.freq s.node) s).root.toNat = 2 * n - 2 := by
    change (BitVec.ofNat 9 ((buildTree s.freq s.node).ids.headD 0)).toNat = _
    rw [hids]
    exact Nat.mod_eq_of_lt (by simp; omega)
  have hleaves : leafCount (installTree (buildTree s.freq s.node) s) = n := by
    rw [leafCount, hcount]
    omega
  refine ⟨fun hzero => ?_, fun _ => ?_⟩
  · rw [hzero] at hcount
    have : (0#10).toNat = 0 := rfl
    omega
  · rw [hleaves, hcount, hroot]
    exact ⟨hpos, hn, rfl, rfl, hvalid⟩

theorem runCommand_treeOk (i : Instr) {s : State} (hnode : s.node.length = 511) (h : TreeOk s) :
    TreeOk (runCommand i s).1 := by
  by_cases hi : i = .build
  · subst hi
    simp only [runCommand]
    obtain ⟨_, _, e⟩ | ⟨_, _, e⟩ | ⟨hne, hsum, e⟩ := runBuild_cases s <;> rw [e]
    · exact h
    · exact h
    · exact installTree_treeOk hnode hne hsum
  · obtain ⟨hcount, hroot, hnode⟩ := runCommand_keepsTree hi s
    exact h.congr hcount hroot hnode

/-- GENCODES leaves the codes of the tree (R170); BUILD runs with no valid codes (R121). -/
theorem runCommand_codesOk (i : Instr) {s : State} (hs : Started i s) (h : CodesOk s) :
    CodesOk (runCommand i s).1 := by
  by_cases hgen : i = .gencodes
  · subst hgen
    simp only [runCommand, runGencodes]
    split
    · exact h
    · next hcount => exact fun _ => ⟨hcount, generateCodes_idempotent s.node s.root s.code⟩
  · obtain ⟨hcode, hvalid⟩ := runCommand_keepsCodes hgen s
    by_cases hbuild : i = .build
    · subst hbuild
      exact .of_not_valid (hvalid.trans hs.2.2)
    · obtain ⟨hcount, hroot, hnode⟩ := runCommand_keepsTree hbuild s
      exact h.congr hvalid hcount hroot hnode hcode

theorem runCommand_resultsOk (i : Instr) {s : State} (htree : TreeOk s) (hcodes : CodesOk s) (h : ResultsOk s) :
    ResultsOk (runCommand i s).1 := by
  obtain ⟨henc, hsym⟩ := h
  cases i with
  | nop | clrfreq => exact ⟨henc, hsym⟩
  | build =>
    obtain ⟨m, c, r, e⟩ := runBuild_frame s
    simpa [runCommand, ResultsOk, e] using ⟨henc, hsym⟩
  | gencodes =>
    obtain ⟨m, b, e⟩ := runGencodes_frame s
    simpa [runCommand, ResultsOk, e] using ⟨henc, hsym⟩
  | encode n =>
    have hle := runEncode_encBitLen_le (n := n) (hcodes.lenIsLength htree) henc
    obtain ⟨m, v, e⟩ := runEncode_frame n s
    simp only [runCommand, ResultsOk, e] at hle ⊢
    exact ⟨hle, hsym⟩
  | decode l =>
    have hle := runDecode_decSymCount_le l hsym
    obtain ⟨m, v, e⟩ := runDecode_frame l s
    simp only [runCommand, ResultsOk, e] at hle ⊢
    exact ⟨henc, hle⟩

theorem CommandInv.of_finish {s : State} (e : Ending) (htree : TreeOk s) (hcodes : CodesOk s)
    (hresults : ResultsOk s) : CommandInv (finish e s) where
  started := by simp [StartedOk]
  tree := htree.congr (finish_nodeCount e s) (finish_root e s) (finish_node e s)
  codes := hcodes.congr (finish_codesValid e s) (finish_nodeCount e s) (finish_root e s) (finish_node e s)
    (finish_code e s)
  results := by simpa [ResultsOk] using hresults

/-- The completion of a command keeps the invariant (R123). -/
theorem CommandInv.complete {s : State} (h : CommandInv s) (hnode : s.node.length = 511) (hbusy : s.busy = true)
    {i : Instr} (hdec : decodeWord s.pending = .ok i) :
    CommandInv (finish (runCommand i s).2 (runCommand i s).1) :=
  .of_finish _ (runCommand_treeOk i hnode h.tree) (runCommand_codesOk i (h.startedBy hbusy hdec) h.codes)
    (runCommand_resultsOk i h.tree h.codes h.results)

/-! ## The step -/

theorem StepCase.commandInv {s t : State} (h : StepCase s t) (hnode : s.node.length = 511)
    (hs : CommandInv s) : CommandInv t := by
  have hpop : CommandInv s.popped := hs.congr ⟨rfl, rfl, rfl, rfl, rfl, rfl, rfl, rfl, rfl, rfl⟩
  cases h with
  | respond | overrun | acknowledge | writeIe | writeFreq | writeSymbuf | writeBitbuf | idle =>
    exact hpop.congr ⟨rfl, rfl, rfl, rfl, rfl, rfl, rfl, rfl, rfl, rfl⟩
  | softReset | hardwareReset => exact .of_resetValues rfl rfl rfl rfl rfl rfl
  | @accept w =>
    exact (hpop.accept w).congr ⟨rfl, rfl, rfl, rfl, rfl, rfl, rfl, rfl, rfl, rfl⟩
  | complete _ hbusy hdec => exact hpop.complete hnode hbusy hdec
  | illegal =>
    exact .of_finish (.fail .illegalCommand s.pending 0#32) hpop.tree hpop.codes hpop.results

/-- Settles O55: the memories' shape by O56, the status by O57, the rest by the cases of the step. -/
theorem stepKeepsInvariant : Obligations.StepKeepsInvariant := by
  unfold Obligations.StepKeepsInvariant
  intro s t hs hstep
  obtain ⟨-, -, hnode, -⟩ := (State.memoryWf_iff s).1 hs.memory
  obtain ⟨hmemory, -⟩ := stepKeepsMemoryShape s t hs.memory hstep
  have hcase := StepCase.of_step hstep
  obtain ⟨hstarted, htree, hcodes, hresults⟩ :=
    hcase.commandInv hnode ⟨hs.started, hs.tree, hs.codes, hs.results⟩
  exact ⟨hmemory, hcase.statusOk hs.status, hstarted, htree, hcodes, hresults⟩

/-- Settles O54: the reset values of the registers, and the shapes of the memories. -/
theorem invariantHoldsAtReset : Obligations.InvariantHoldsAtReset := by
  unfold Obligations.InvariantHoldsAtReset
  have hquiet : Quiet State.reset := ⟨rfl, rfl, rfl, rfl, rfl⟩
  obtain ⟨hstarted, htree, hcodes, hresults⟩ : CommandInv State.reset :=
    .of_resetValues rfl rfl rfl rfl rfl rfl
  exact ⟨State.reset_memoryWf, hquiet.statusOk, hstarted, htree, hcodes, hresults⟩

end Sys2Proof.Machine
end

section
/-! PROOFS. The host port (spec 20_memory.md R61 to R74): the address map range by range and its inverse, what a step on
an access answers, and the words that the NODE and CODE regions show. -/

namespace Sys2Proof.Machine

/-! ## The address map by ranges (R64, R65) -/

theorem csrOfIndex_eq_none {k : Nat} (h : 13 ≤ k) : csrOfIndex k = none := by
  rw [csrOfIndex] <;> omega

section
variable {c : Config} {off : Offset}

theorem resolve_csrRange (h : off.toNat < 0x0400) : resolve c off = (csrOfIndex (off.toNat / 4)).map .csr := by
  simp only [resolve]
  rw [if_pos h]

theorem resolve_freqRange (h : 0x0400 ≤ off.toNat) (h' : off.toNat < 0x0800) :
    resolve c off = some (.freq ((off.toNat - 0x0400) / 4)) := by
  simp only [resolve]
  rw [if_neg (by omega), if_pos h']

theorem resolve_gapAboveFreq (h : 0x0800 ≤ off.toNat) (h' : off.toNat < 0x1000) : resolve c off = none := by
  simp only [resolve]
  rw [if_neg (by omega), if_neg (by omega), if_pos h']

theorem resolve_nodeRange (h : 0x1000 ≤ off.toNat) (h' : off.toNat < 0x2000) :
    resolve c off = some (.node ((off.toNat - 0x1000) / 8) ((off.toNat - 0x1000) / 4 % 2)) := by
  simp only [resolve]
  rw [if_neg (by omega), if_neg (by omega), if_neg (by omega), if_pos h']

theorem resolve_gapAboveNode (h : 0x2000 ≤ off.toNat) (h' : off.toNat < 0x4000) : resolve c off = none := by
  simp only [resolve]
  rw [if_neg (by omega), if_neg (by omega), if_neg (by omega), if_neg (by omega), if_pos h']

theorem resolve_codeRange (h : 0x4000 ≤ off.toNat) (h' : off.toNat < 0x8000) :
    resolve c off = some (.code ((off.toNat - 0x4000) / 64) ((off.toNat - 0x4000) / 4 % 16)) := by
  simp only [resolve]
  rw [if_neg (by omega), if_neg (by omega), if_neg (by omega), if_neg (by omega), if_neg (by omega), if_pos h']

theorem resolve_symbufRange (h : 0x8000 ≤ off.toNat) (h' : off.toNat < 0xC000) :
    resolve c off =
      if (off.toNat - 0x8000) / 4 < c.symbufDepth then some (.symbuf ((off.toNat - 0x8000) / 4)) else none := by
  simp only [resolve]
  rw [if_neg (by omega), if_neg (by omega), if_neg (by omega), if_neg (by omega), if_neg (by omega),
    if_neg (by omega), if_pos h']

theorem resolve_bitbufRange (h : 0xC000 ≤ off.toNat) :
    resolve c off =
      if (off.toNat - 0xC000) / 4 < c.bitbufWords then some (.bitbuf ((off.toNat - 0xC000) / 4)) else none := by
  simp only [resolve]
  rw [if_neg (by omega), if_neg (by omega), if_neg (by omega), if_neg (by omega), if_neg (by omega),
    if_neg (by omega), if_neg (by omega)]

/-- Beyond the last register nothing is mapped below the FREQ region. -/
theorem resolve_gapAboveCsr (h : 0x0034 ≤ off.toNat) (h' : off.toNat < 0x0400) : resolve c off = none := by
  rw [resolve_csrRange h', csrOfIndex_eq_none (by omega), Option.map_none]

/-- Every offset from 0x0000 to 0x0030 that is aligned is a register's (R64). -/
theorem exists_csr_offset (h : off.toNat % 4 = 0) (h' : off.toNat ≤ 0x0030) : ∃ r : Csr, off = r.offset := by
  have hall : ∀ k < 13, (csrOfIndex k).isSome = true := by decide
  obtain ⟨r, hr⟩ := Option.isSome_iff_exists.1 (hall (off.toNat / 4) (by omega))
  exact ⟨r, BitVec.eq_of_toNat_eq (by rw [offset_of_csrOfIndex hr]; omega)⟩

/-- What is mapped in the FREQ and NODE ranges and from the CODE range on is an entry of a memory (R66). -/
theorem isMemory_of_resolve {t : Target} (h : resolve c off = some t)
    (hrange : (0x0400 ≤ off.toNat ∧ off.toNat ≤ 0x07FF) ∨ (0x1000 ≤ off.toNat ∧ off.toNat ≤ 0x1FFF) ∨
      0x4000 ≤ off.toNat) : t.isMemory = true := by
  obtain ⟨r, rfl, hr⟩ | ⟨i, rfl, -⟩ | ⟨i, w, rfl⟩ | ⟨i, w, rfl⟩ | ⟨i, rfl⟩ | ⟨i, rfl⟩ := resolve_cases h
  · have hoff := offset_of_csrOfIndex hr
    have hlast : r.offset.toNat ≤ 0x0030 := by cases r <;> decide
    omega
  all_goals rfl

end

/-! ## The inverse of the address map (R69 to R73) -/

/-- The aligned offset `off` is mapped to the place `t` (R63, R64). -/
def Names (c : Config) (off : Offset) (t : Target) : Prop := resolve c off = some t ∧ off.toNat % 4 = 0

section
variable (c : Config)

theorem names_csr (r : Csr) : Names c r.offset (.csr r) :=
  ⟨resolve_csr_offset c r, toNat_mod_four (csr_offset_aligned r)⟩

theorem names_freq {n y : Nat} (hn : n = 0x0400 + 4 * y) (hy : y < 256) :
    Names c (BitVec.ofNat 16 n) (.freq y) := by
  have hoff : (BitVec.ofNat 16 n).toNat = 0x0400 + 4 * y := by simp; omega
  refine ⟨?_, by omega⟩
  rw [resolve_freqRange (by omega) (by omega), hoff]
  congr 2
  omega

theorem names_node {n i w : Nat} (hn : n = 0x1000 + 8 * i + 4 * w) (hi : i < 512) (hw : w < 2) :
    Names c (BitVec.ofNat 16 n) (.node i w) := by
  have hoff : (BitVec.ofNat 16 n).toNat = 0x1000 + 8 * i + 4 * w := by simp; omega
  refine ⟨?_, by omega⟩
  rw [resolve_nodeRange (by omega) (by omega), hoff]
  congr 2 <;> omega

theorem names_code {n y w : Nat} (hn : n = 0x4000 + 64 * y + 4 * w) (hy : y < 256) (hw : w < 16) :
    Names c (BitVec.ofNat 16 n) (.code y w) := by
  have hoff : (BitVec.ofNat 16 n).toNat = 0x4000 + 64 * y + 4 * w := by simp; omega
  refine ⟨?_, by omega⟩
  rw [resolve_codeRange (by omega) (by omega), hoff]
  congr 2 <;> omega

section
variable {c} {i : Nat} (hi : i < 4096)
include hi

/-- The SYMBUF window: its entry below the depth, nothing from the depth on (R65, R72). -/
theorem resolve_symbufWindow : resolve c (BitVec.ofNat 16 (0x8000 + 4 * i)) =
    if i < c.symbufDepth then some (.symbuf i) else none := by
  have hoff : (BitVec.ofNat 16 (0x8000 + 4 * i)).toNat = 0x8000 + 4 * i := by simp; omega
  rw [resolve_symbufRange (by omega) (by omega), hoff, show (0x8000 + 4 * i - 0x8000) / 4 = i by omega]

/-- The BITBUF window: its word below the last, nothing from there on (R65, R73). -/
theorem resolve_bitbufWindow : resolve c (BitVec.ofNat 16 (0xC000 + 4 * i)) =
    if i < c.bitbufWords then some (.bitbuf i) else none := by
  have hoff : (BitVec.ofNat 16 (0xC000 + 4 * i)).toNat = 0xC000 + 4 * i := by simp; omega
  rw [resolve_bitbufRange (by omega), hoff, show (0xC000 + 4 * i - 0xC000) / 4 = i by omega]

theorem names_symbuf (hdepth : i < c.symbufDepth) : Names c (BitVec.ofNat 16 (0x8000 + 4 * i)) (.symbuf i) :=
  ⟨by rw [resolve_symbufWindow hi, if_pos hdepth], by simp⟩

theorem names_bitbuf (hwords : i < c.bitbufWords) : Names c (BitVec.ofNat 16 (0xC000 + 4 * i)) (.bitbuf i) :=
  ⟨by rw [resolve_bitbufWindow hi, if_pos hwords], by simp⟩

end

end

/-! ## What a step on an access answers (R61, R68, R231) -/

theorem aligned_of_mod_four {off : Offset} (h : off.toNat % 4 = 0) : off.extractLsb' 0 2 = 0#2 :=
  BitVec.eq_of_toNat_eq (by simpa using h)

/-- An access that `judge` lets pass to no place is a bus error. -/
theorem judge_busError {a : Access} {s : State} (h : ∀ t, judge a s ≠ .ok t) :
    judge a s = .error .busError :=
  (judge_cases a s).resolve_right fun ⟨t, e, _⟩ => h t e

/-- An access to an offset that nothing is mapped to (R65). -/
theorem judge_unmapped {a : Access} {s : State} (h : resolve s.cfg a.addr = none) :
    judge a s = .error .busError := by
  refine judge_busError fun t e => ?_
  obtain ⟨-, -, hres, -⟩ := judge_eq_ok e
  simp [h] at hres

section
variable {s : State} {a : Access} {t : Target} (rest : List Event)

theorem hostRead_withInputs : hostRead t (s.withInputs rest) = hostRead t s := by
  cases t with
  | csr r => cases r <;> rfl
  | freq | node | code | symbuf | bitbuf => rfl

theorem step_busError (h : judge a s = .error .busError) :
    step (s.withInputs (.access a :: rest)) = .next { s with inputs := rest, resp := some ⟨0#32, true⟩ } := by
  have hj : judge a (s.withInputs rest) = .error .busError := h
  change Host.Outcome.next (hostAccess a (s.withInputs rest)) = _
  rw [hostAccess, hj]
  rfl

theorem step_performed (h : judge a s = .ok t) :
    step (s.withInputs (.access a :: rest)) =
      .next (if a.write then (hostWrite t a.wdata (s.withInputs rest)).withResponse 0#32 false
        else (s.withInputs rest).withResponse (hostRead t s) false) := by
  have hj : judge a (s.withInputs rest) = .ok t := h
  change Host.Outcome.next (hostAccess a (s.withInputs rest)) = _
  simp only [hostAccess, hj, hostRead_withInputs]

end

section
variable {s : State} {off : Offset} {t : Target} (rest : List Event)

section
variable (hn : Names s.cfg off t) (hidle : s.busy = false)
include hn hidle

theorem step_readEvent_idle :
    step (s.withInputs (readEvent off :: rest)) =
      .next { s with inputs := rest, resp := some ⟨hostRead t s, false⟩ } :=
  step_performed rest (judge_ok rfl (aligned_of_mod_four hn.2) hn.1 (.inl hidle))

theorem step_writeEvent_idle (v : Word) :
    step (s.withInputs (writeEvent off v :: rest)) =
      .next ((hostWrite t v (s.withInputs rest)).withResponse 0#32 false) :=
  step_performed rest (judge_ok rfl (aligned_of_mod_four hn.2) hn.1 (.inl hidle))

end

/-- Both accesses to an offset that nothing is mapped to (R65). -/
theorem step_unmapped (h : resolve s.cfg off = none) (v : Word) :
    step (s.withInputs (readEvent off :: rest)) = .next { s with inputs := rest, resp := some ⟨0#32, true⟩ } ∧
      step (s.withInputs (writeEvent off v :: rest)) =
        .next { s with inputs := rest, resp := some ⟨0#32, true⟩ } :=
  ⟨step_busError rest (judge_unmapped h), step_busError rest (judge_unmapped h)⟩

end

/-- A write replaces its entry and nothing else of a memory. -/
theorem Memory.write_spec {α : Type} [Inhabited α] {m : Memory α} {n i : Nat} (hm : m.length = n) (hi : i < n)
    (v : α) : (m.write i v).length = n ∧ (m.write i v).read i = v ∧
      ∀ j < n, j ≠ i → (m.write i v).read j = m.read j :=
  ⟨(Memory.length_write m i v).trans hm, Memory.read_write_same v (hm ▸ hi),
    fun _ _ hj => Memory.read_write_other m v hj.symm⟩

/-! ## The words of the NODE and CODE regions (R70, R71) -/

/-- The word of a leaf and word 0 of a code: bit 31, zeros, and a byte. -/
theorem flaggedByte_fields (y : BitVec 8) {d : Word} (hd : d = (1#32 <<< 31) ||| y.zeroExtend 32) :
    d.getLsbD 31 = true ∧ d.extractLsb' 8 23 = 0#23 ∧ d.extractLsb' 0 8 = y := by
  have hlow {k : Nat} (hk : k < 31) : d.getLsbD k = y.getLsbD k := by
    rw [hd, BitVec.getLsbD_or, BitVec.getLsbD_shiftLeft, BitVec.getLsbD_setWidth]
    simp [hk, show k < 32 by omega]
  refine ⟨by simp [hd], extractLsb'_eq_zero fun k hk => ?_, BitVec.eq_of_getLsbD_eq fun k hk => ?_⟩
  · rw [hlow (by omega), BitVec.getLsbD_of_ge y _ (by omega)]
  · simp [hk, hlow (show k < 31 by omega)]

/-- The word of an internal node: two node ids, each in its half word. -/
theorem childrenWord_fields (l r : NodeId) {d : Word} (hd : d = (r.zeroExtend 32 <<< 16) ||| l.zeroExtend 32) :
    d.extractLsb' 25 7 = 0#7 ∧ d.extractLsb' 16 9 = r ∧ d.extractLsb' 9 7 = 0#7 ∧ d.extractLsb' 0 9 = l := by
  have hlow {k : Nat} (hk : k < 16) : d.getLsbD k = l.getLsbD k := by
    simp [hd, hk, show k < 32 by omega]
  have hhigh {k : Nat} (hk : k < 16) : d.getLsbD (16 + k) = r.getLsbD k := by
    simp [hd, show 16 + k < 32 by omega, BitVec.getLsbD_of_ge l (16 + k) (by omega)]
  refine ⟨extractLsb'_eq_zero fun k hk => ?_, BitVec.eq_of_getLsbD_eq fun k hk => ?_,
    extractLsb'_eq_zero fun k hk => ?_, BitVec.eq_of_getLsbD_eq fun k hk => ?_⟩
  · rw [show 25 + k = 16 + (9 + k) by omega, hhigh (by omega), BitVec.getLsbD_of_ge r _ (by omega)]
  · simp [hk, hhigh (show k < 16 by omega)]
  · rw [hlow (by omega), BitVec.getLsbD_of_ge l _ (by omega)]
  · simp [hk, hlow (show k < 16 by omega)]

/-- Bit `31 - b` of word `w ≥ 1` of a code entry is the code's bit, and 0 from its length on (R71). -/
theorem getLsbD_codeWord (e : CodeEntry) {w b : Nat} (hw : 1 ≤ w) (hb : b < 32) :
    (codeWord e w).getLsbD (31 - b) =
      (decide (32 * (w - 1) + b < e.len.toNat) && e.bits.getD (32 * (w - 1) + b) false) := by
  rw [codeWord, if_neg (by omega), getLsbD_packWord _ _ hb, List.getD_eq_getElem?_getD, List.getElem?_take]
  split
  · next h => simp [h]
  · next h => simp [h]

theorem readNode_free {i : Nat} {s : State} (h : s.nodeCount.toNat ≤ i) (w : Nat) : readNode i w s = 0#32 :=
  if_pos h

theorem readNode_valid {i : Nat} {s : State} (h : i < s.nodeCount.toNat) (w : Nat) :
    readNode i w s = nodeWord (s.node.read i) w := if_neg (by omega)

theorem readCode_valid {y : Nat} {s : State} (h : s.codesValid = true) (h' : (s.code.read y).valid = true) (w : Nat) :
    readCode y w s = codeWord (s.code.read y) w := by simp [readCode, h, h']

theorem readCode_free {y : Nat} {s : State} (h : s.codesValid = false ∨ (s.code.read y).valid = false) (w : Nat) :
    readCode y w s = 0#32 := by
  obtain h | h := h <;> simp [readCode, h]

end Sys2Proof.Machine
end

section
/-! PROOFS. The statements about the host port (spec 20_memory.md R62 to R74), and that every step answers a next state
(40_control.md R124). -/

namespace Sys2Proof.Machine

/-! ## Which accesses raise BusError (R62 to R66) -/

/-- Settles O6: an access that passes the checks has size 4. -/
theorem wrongSizeRaisesBusError : Obligations.WrongSizeRaisesBusError := by
  unfold Obligations.WrongSizeRaisesBusError
  intro s a rest hsize
  refine step_busError rest (judge_busError fun t e => ?_)
  obtain ⟨hpassed, -⟩ := judge_eq_ok e
  exact hsize hpassed

/-- Settles O7: an access that passes the checks is aligned. -/
theorem misalignedAccessRaisesBusError : Obligations.MisalignedAccessRaisesBusError := by
  unfold Obligations.MisalignedAccessRaisesBusError
  intro s a rest halign
  refine step_busError rest (judge_busError fun t e => ?_)
  obtain ⟨-, hpassed, -⟩ := judge_eq_ok e
  exact halign (toNat_mod_four hpassed)

/-- Settles O8: the address map is `none` in each of the ranges. -/
theorem unmappedAccessRaisesBusError : Obligations.UnmappedAccessRaisesBusError := by
  unfold Obligations.UnmappedAccessRaisesBusError
  intro s a rest _ _ hrange
  refine step_busError rest (judge_unmapped ?_)
  obtain ⟨h, h'⟩ | ⟨h, h'⟩ | ⟨h, h'⟩ | ⟨h, h', hdepth⟩ | ⟨h, hwords⟩ := hrange
  · exact resolve_gapAboveCsr h (by omega)
  · exact resolve_gapAboveFreq h (by omega)
  · exact resolve_gapAboveNode h (by omega)
  · rw [resolve_symbufRange h (by omega), if_neg (by omega)]
  · rw [resolve_bitbufRange h, if_neg (by omega)]

/-- Settles O9: in the locked ranges only memories are mapped, and every offset up to 0x0030 is a register's. -/
theorem busyLocksMemoryRegions : Obligations.BusyLocksMemoryRegions := by
  unfold Obligations.BusyLocksMemoryRegions
  intro s a rest hbusy
  refine ⟨fun hrange => step_busError rest (judge_busError fun t e => ?_), fun hsize halign hlast => ?_⟩
  · obtain ⟨-, -, hres, hlock⟩ := judge_eq_ok e
    simp [hbusy, isMemory_of_resolve hres hrange] at hlock
  · obtain ⟨r, hr⟩ := exists_csr_offset halign hlast
    have hj : judge a s = .ok (.csr r) :=
      judge_ok hsize (aligned_of_mod_four halign) (hr ▸ resolve_csr_offset _ r) (.inr rfl)
    rw [step_performed rest hj]
    cases a.write
    · exact ⟨_, _, rfl, rfl⟩
    · exact ⟨_, _, rfl, rfl⟩

/-! ## Accesses that are performed (R67, R68, R74) -/

/-- Settles O10: `judge` lets the access pass. -/
theorem passedChecksPerformAccess : Obligations.PassedChecksPerformAccess := by
  unfold Obligations.PassedChecksPerformAccess
  intro s a t rest hsize halign hres hlock
  exact step_performed rest (judge_ok hsize (aligned_of_mod_four halign) hres hlock.symm)

/-- Settles O11: a case for each kind of place. -/
theorem addressMapInvertsOffsets : Obligations.AddressMapInvertsOffsets := by
  unfold Obligations.AddressMapInvertsOffsets
  intro c t hcfg hmapped
  obtain ⟨-, hdepth, -, hwords⟩ := (Config.wf_iff c).1 hcfg
  cases t with
  | csr r => exact names_csr c r
  | freq y => exact names_freq c rfl (by simpa [Target.mapped] using hmapped)
  | node i w =>
    simp only [Target.mapped, Bool.and_eq_true, decide_eq_true_eq] at hmapped
    exact names_node c rfl hmapped.1 hmapped.2
  | code y w =>
    simp only [Target.mapped, Bool.and_eq_true, decide_eq_true_eq] at hmapped
    exact names_code c rfl hmapped.1 hmapped.2
  | symbuf i =>
    have hi : i < c.symbufDepth := by simpa [Target.mapped] using hmapped
    exact names_symbuf (by omega) hi
  | bitbuf w =>
    have hw : w < c.bitbufWords := by simpa [Target.mapped] using hmapped
    exact names_bitbuf (by omega) hw

/-- Settles O12: a read is a bus error or performed, and either only responds. -/
theorem readHasNoSideEffect : Obligations.ReadHasNoSideEffect := by
  unfold Obligations.ReadHasNoSideEffect
  intro s a rest hread
  obtain e | ⟨t, e, -⟩ := judge_cases a s
  · exact ⟨_, step_busError rest e⟩
  · refine ⟨⟨hostRead t s, false⟩, ?_⟩
    rw [step_performed rest e, hread]
    rfl

/-- Settles O13: at the register offsets the register is none of those with a write effect; the NODE and CODE ranges are
their regions. -/
theorem writeToReadOnlyIsNoOp : Obligations.WriteToReadOnlyIsNoOp := by
  unfold Obligations.WriteToReadOnlyIsNoOp
  intro s off v rest halign hrange
  have hcsr (hlast : off.toNat ≤ 0x0030) (hro : off.toNat ≤ 0x0004 ∨ 0x0018 ≤ off.toNat) :
      step (s.withInputs (writeEvent off v :: rest)) =
        .next { s with inputs := rest, resp := some ⟨0#32, false⟩ } := by
    obtain ⟨r, rfl⟩ := exists_csr_offset halign hlast
    rw [step_writeEvent_csr]
    cases r with
    | ctrl | cmd | status | ie => exact absurd hro (by decide)
    | id | config | errcode | errinfo0 | errinfo1 | nodeCount | root | encBitlen | decSymcount => rfl
  obtain h | ⟨h, h'⟩ | ⟨hidle, h, h'⟩ | ⟨hidle, h, h'⟩ := hrange
  · exact hcsr (by omega) (.inl h)
  · exact hcsr h' (.inr h)
  · exact step_writeEvent_idle rest ⟨resolve_nodeRange h (by omega), halign⟩ hidle v
  · exact step_writeEvent_idle rest ⟨resolve_codeRange h (by omega), halign⟩ hidle v

/-! ## The windows (R69 to R73) -/

/-- Settles O14: the offset names entry `y`, and the write replaces that entry of the memory. -/
theorem freqWindowReadsAndWrites : Obligations.FreqWindowReadsAndWrites := by
  unfold Obligations.FreqWindowReadsAndWrites
  intro s y v rest hmem hidle hy
  obtain ⟨-, hlen, -⟩ := (State.memoryWf_iff s).1 hmem
  have hn := names_freq s.cfg rfl hy
  obtain ⟨hlen', hsame, hother⟩ := Memory.write_spec hlen hy v
  exact ⟨step_readEvent_idle rest hn hidle, _, hlen', hsame, hother, step_writeEvent_idle rest hn hidle v⟩

/-- Settles O15: `readNode` at either word, and the fields of the two forms of word 1. -/
theorem nodeWindowReadsTree : Obligations.NodeWindowReadsTree := by
  unfold Obligations.NodeWindowReadsTree
  intro s i v rest hidle hi
  have hn₀ : Names s.cfg (BitVec.ofNat 16 (0x1000 + 8 * i)) (.node i 0) := names_node s.cfg rfl hi (by omega)
  have hn₁ : Names s.cfg (BitVec.ofNat 16 (0x1004 + 8 * i)) (.node i 1) :=
    names_node s.cfg (by omega) hi (by omega)
  have hread₀ := step_readEvent_idle rest hn₀ hidle
  have hread₁ := step_readEvent_idle rest hn₁ hidle
  simp only [hostRead] at hread₀ hread₁
  refine ⟨fun hfree => ?_, fun hvalid => ?_, step_writeEvent_idle rest hn₀ hidle v,
    step_writeEvent_idle rest hn₁ hidle v⟩
  · rw [readNode_free hfree] at hread₀ hread₁
    exact ⟨hread₀, hread₁⟩
  · rw [readNode_valid hvalid] at hread₀ hread₁
    refine ⟨hread₀, _, hread₁, fun f y hleaf => ?_, fun f l r hinternal => ?_⟩
    · exact flaggedByte_fields y (by rw [hleaf]; rfl)
    · exact childrenWord_fields l r (by rw [hinternal]; rfl)

/-- Settles O16: `readCode` without a valid code, at word 0 and at the words of the code's bits. -/
theorem codeWindowReadsCodes : Obligations.CodeWindowReadsCodes := by
  unfold Obligations.CodeWindowReadsCodes
  intro s y w v rest hidle hy hw
  have hn := names_code s.cfg rfl hy hw
  refine ⟨⟨readCode y w s, step_readEvent_idle rest hn hidle, fun hfree => readCode_free hfree w,
    fun hvalid hcode hzero => ?_, fun hvalid hcode hpos b hb => ?_⟩, step_writeEvent_idle rest hn hidle v⟩
  · rw [readCode_valid hvalid hcode, hzero]
    exact flaggedByte_fields _ rfl
  · rw [readCode_valid hvalid hcode]
    exact getLsbD_codeWord _ hpos hb

/-- Settles O17: below the depth the offset names entry `i`, from the depth on it names nothing. -/
theorem symbufWindowReadsAndWrites : Obligations.SymbufWindowReadsAndWrites := by
  unfold Obligations.SymbufWindowReadsAndWrites
  intro s i v rest hmem hidle hi
  obtain ⟨-, -, -, -, hlen, -⟩ := (State.memoryWf_iff s).1 hmem
  refine ⟨fun hdepth => ?_, fun hdepth => step_unmapped rest ?_ v⟩
  · have hn := names_symbuf hi hdepth
    obtain ⟨hlen', hsame, hother⟩ := Memory.write_spec hlen hdepth (v.extractLsb' 0 8)
    exact ⟨step_readEvent_idle rest hn hidle, _, hlen', hsame, hother, step_writeEvent_idle rest hn hidle v⟩
  · rw [resolve_symbufWindow hi, if_neg (by omega)]

/-- Settles O18: below `BITBUF_WORDS` the offset names word `i`, from there on it names nothing. -/
theorem bitbufWindowReadsAndWrites : Obligations.BitbufWindowReadsAndWrites := by
  unfold Obligations.BitbufWindowReadsAndWrites
  intro s i v rest hmem hidle hi
  obtain ⟨-, -, -, -, -, hlen⟩ := (State.memoryWf_iff s).1 hmem
  refine ⟨fun hwords => ?_, fun hwords => step_unmapped rest ?_ v⟩
  · have hn := names_bitbuf hi hwords
    obtain ⟨hlen', hsame, hother⟩ := Memory.write_spec hlen hwords v
    exact ⟨step_readEvent_idle rest hn hidle, _, hlen', hsame, hother, step_writeEvent_idle rest hn hidle v⟩
  · rw [resolve_bitbufWindow hi, if_neg (by omega)]

/-! ## Every step (R61, R124) -/

/-- Settles O28: a step is one of the cases of `StepCase`, and each of them is a next state. -/
theorem everyStepAnswersNext : Obligations.EveryStepAnswersNext := by
  unfold Obligations.EveryStepAnswersNext
  intro s
  obtain ⟨t, hnext, -⟩ := step_stepCase s
  exact ⟨t, hnext⟩

end Sys2Proof.Machine
end

section
/-! PROOFS. The encoding (spec 30_encoding.md): the encoder and the decoder are inverses on well-formed instructions
(R101 to R103, R108), the legal words (R104) and the opcode table (R103), and how an illegal word ends (R105). -/

namespace Sys2Proof

/-! ## Encoder and decoder are inverses (R101 to R103, R108) -/

theorem decodeWord_commandWord_encode (n : Nat) :
    decodeWord (commandWord n 0x04#8) = .ok (.encode (n % 2 ^ 24)) := by simp [decodeWord]

theorem decodeWord_commandWord_decode (l : Nat) :
    decodeWord (commandWord l 0x05#8) = .ok (.decode (l % 2 ^ 24)) := by simp [decodeWord]

/-- An argument survives the 24-bit field exactly when it fits (R102). -/
theorem mod_eq_self_iff_le_argMax (n : Nat) : n % 2 ^ 24 = n ↔ n ≤ argMax := by
  unfold argMax
  omega

/-- The round trip gives the instruction back exactly when a word can carry it (R102, R108). -/
theorem decodeWord_encode_iff_wf (i : Instr) : decodeWord (encode i) = .ok i ↔ i.wf = true := by
  cases i with
  | nop | clrfreq | build | gencodes => decide
  | encode n =>
    rw [encode, decodeWord_commandWord_encode]
    simpa [Instr.wf] using mod_eq_self_iff_le_argMax n
  | decode l =>
    rw [encode, decodeWord_commandWord_decode]
    simpa [Instr.wf] using mod_eq_self_iff_le_argMax l

/-- A word decodes to an instruction exactly when it is the word of that instruction and can carry it. -/
theorem decodeWord_eq_ok_iff {w : Word} {i : Instr} : decodeWord w = .ok i ↔ i.wf = true ∧ encode i = w := by
  constructor
  · intro h
    obtain rfl := eq_encode_of_decodeWord h
    exact ⟨(decodeWord_encode_iff_wf i).1 h, rfl⟩
  · rintro ⟨hwf, rfl⟩
    exact (decodeWord_encode_iff_wf i).2 hwf

/-- Settles O1: a well-formed argument survives the 24-bit field of the word. -/
theorem encodeThenDecodeGivesInstruction : Obligations.EncodeThenDecodeGivesInstruction := by
  unfold Obligations.EncodeThenDecodeGivesInstruction
  exact fun i hwf => (decodeWord_encode_iff_wf i).2 hwf

/-- Settles O2: a word that decodes is its instruction's word, and the round trip makes the instruction well formed. -/
theorem decodedWordIsItsEncoding : Obligations.DecodedWordIsItsEncoding := by
  unfold Obligations.DecodedWordIsItsEncoding
  exact fun _ _ h => decodeWord_eq_ok_iff.1 h

/-- Settles O5: R110's words, run. -/
theorem specExampleWordsDecode : Obligations.SpecExampleWordsDecode := by
  unfold Obligations.SpecExampleWordsDecode
  decide

/-! ## The legal words (R104) -/

/-- R104 by its cases. -/
theorem legal_iff (w : Word) : legal w = true ↔
    ((opField w = 0x00#8 ∨ opField w = 0x01#8 ∨ opField w = 0x02#8 ∨ opField w = 0x03#8) ∧ argField w = 0#24) ∨
      opField w = 0x04#8 ∨ opField w = 0x05#8 := by
  simp [legal]

theorem legal_encode (i : Instr) : legal (encode i) = true := by
  cases i with
  | nop | clrfreq | build | gencodes => decide
  | encode n | decode n => simp [legal, encode]

/-- A word with the fields of an instruction's word decodes to that instruction (R101). -/
theorem decodeWord_of_fields {w : Word} {i : Instr} (hwf : i.wf = true) (hop : opField w = opField (encode i))
    (harg : argField w = argField (encode i)) : decodeWord w = .ok i := by
  have hw : w = encode i := by rw [← commandWord_fields w, hop, harg, commandWord_fields]
  exact decodeWord_eq_ok_iff.2 ⟨hwf, hw.symm⟩

theorem argField_le_argMax (w : Word) : (argField w).toNat ≤ argMax := Nat.le_of_lt_succ (argField w).isLt

theorem decodeWord_of_opField_encode {w : Word} (hop : opField w = 0x04#8) :
    decodeWord w = .ok (.encode (argField w).toNat) :=
  decodeWord_eq_ok_iff.2 ⟨decide_eq_true (argField_le_argMax w), (eq_commandWord hop rfl).symm⟩

theorem decodeWord_of_opField_decode {w : Word} (hop : opField w = 0x05#8) :
    decodeWord w = .ok (.decode (argField w).toNat) :=
  decodeWord_eq_ok_iff.2 ⟨decide_eq_true (argField_le_argMax w), (eq_commandWord hop rfl).symm⟩

/-- The words that decode are the legal ones (R104). -/
theorem exists_decodeWord_iff_legal (w : Word) : (∃ i, decodeWord w = .ok i) ↔ legal w = true := by
  constructor
  · rintro ⟨i, h⟩
    exact eq_encode_of_decodeWord h ▸ legal_encode i
  · intro h
    obtain ⟨hop | hop | hop | hop, harg⟩ | hop | hop := (legal_iff w).1 h
    · exact ⟨.nop, decodeWord_of_fields rfl hop harg⟩
    · exact ⟨.clrfreq, decodeWord_of_fields rfl hop harg⟩
    · exact ⟨.build, decodeWord_of_fields rfl hop harg⟩
    · exact ⟨.gencodes, decodeWord_of_fields rfl hop harg⟩
    · exact ⟨_, decodeWord_of_opField_encode hop⟩
    · exact ⟨_, decodeWord_of_opField_decode hop⟩

/-- An illegal word is rejected (R104, R105). -/
theorem exists_decodeWord_error {w : Word} (h : legal w = false) : ∃ r, decodeWord w = .error r := by
  cases hdec : decodeWord w with
  | ok i =>
    have hlegal := (exists_decodeWord_iff_legal w).1 ⟨i, hdec⟩
    simp [h] at hlegal
  | error r => exact ⟨r, rfl⟩

/-- Settles O3: the words that decode are the legal ones, and acceptance looks at the decoded instruction. -/
theorem decoderAcceptsExactlyLegalWords : Obligations.DecoderAcceptsExactlyLegalWords := by
  unfold Obligations.DecoderAcceptsExactlyLegalWords
  refine ⟨fun w => (exists_decodeWord_iff_legal w).trans (legal_iff w), fun w s => ?_⟩
  obtain h | ⟨⟨r, hr⟩, e⟩ := Machine.accept_cases w s
  · exact .inl h
  · exact .inr ⟨fun i hi => by simp [hr] at hi, e⟩

/-! ## The opcode table (R103) -/

section
variable {m : String} {w : Word}

/-- A row without an argument covers its pattern alone. -/
theorem covers_fullMask {p : Word} : OpcodeRow.covers ⟨m, p, 0xFFFFFFFF#32⟩ w = true ↔ w = p := by
  rw [OpcodeRow.covers, decide_eq_true_iff, show 0xFFFFFFFF#32 = BitVec.allOnes 32 from rfl, BitVec.and_allOnes]

/-- A row with an argument covers the words of its opcode. -/
theorem covers_opMask {op : BitVec 8} :
    OpcodeRow.covers ⟨m, op.zeroExtend 32, 0x000000FF#32⟩ w = true ↔ opField w = op := by
  have hmod : w.toNat &&& 255 = w.toNat % 256 := Nat.and_two_pow_sub_one_eq_mod w.toNat 8
  have hop : op.toNat % 4294967296 = op.toNat := Nat.mod_eq_of_lt (by omega)
  rw [OpcodeRow.covers, decide_eq_true_iff, opField, ← BitVec.toNat_inj, ← BitVec.toNat_inj]
  simp [hmod, hop]

end

/-- A word that a row covers decodes to a command of that row (R103). -/
theorem exists_decodeWord_of_covers {r : OpcodeRow} {w : Word} (hr : r ∈ opcodeTable) (h : r.covers w = true) :
    ∃ i, decodeWord w = .ok i ∧ i.mnemonic = r.mnemonic := by
  simp only [opcodeTable, List.mem_cons, List.not_mem_nil, or_false] at hr
  obtain rfl | rfl | rfl | rfl | rfl | rfl := hr
  · exact ⟨.nop, covers_fullMask.1 h ▸ rfl, rfl⟩
  · exact ⟨.clrfreq, covers_fullMask.1 h ▸ rfl, rfl⟩
  · exact ⟨.build, covers_fullMask.1 h ▸ rfl, rfl⟩
  · exact ⟨.gencodes, covers_fullMask.1 h ▸ rfl, rfl⟩
  · exact ⟨_, decodeWord_of_opField_encode (covers_opMask.1 h), rfl⟩
  · exact ⟨_, decodeWord_of_opField_decode (covers_opMask.1 h), rfl⟩

/-- The row of an instruction's mnemonic covers its word (R103). -/
theorem covers_encode (i : Instr) : ∀ r ∈ opcodeTable, r.mnemonic = i.mnemonic → r.covers (encode i) = true := by
  cases i with
  | nop | clrfreq | build | gencodes => decide
  | encode n =>
    simpa [opcodeTable, Instr.mnemonic, encode] using covers_opMask.2 (opField_commandWord n 0x04#8)
  | decode l =>
    simpa [opcodeTable, Instr.mnemonic, encode] using covers_opMask.2 (opField_commandWord l 0x05#8)

/-- Settles O4: a row covers the words of its mnemonic's commands, and these alone. -/
theorem opcodeTableMatchesDecoder : Obligations.OpcodeTableMatchesDecoder := by
  unfold Obligations.OpcodeTableMatchesDecoder
  refine fun w i => ⟨fun hdec r hr => ⟨fun hcov => ?_, fun hm => ?_⟩, fun r hr => exists_decodeWord_of_covers hr⟩
  · obtain ⟨j, hj, hm⟩ := exists_decodeWord_of_covers hr hcov
    obtain rfl : i = j := Except.ok.inj (hdec.symm.trans hj)
    exact hm.symm
  · exact eq_encode_of_decodeWord hdec ▸ covers_encode i r hr hm

end Sys2Proof

namespace Sys2Proof.Machine

/-! ## An illegal word (R105) -/

/-- The engine's turn with an illegal word pending (R105, R127). -/
theorem engineTurn_illegal {s : State} (hbusy : s.busy = true) (h : legal s.pending = false) :
    engineTurn s = .next (errorEntry .illegalCommand s.pending 0#32 s) := by
  obtain ⟨hidle, -⟩ | ⟨-, i, hdec, -⟩ | ⟨-, -, -, hturn⟩ := engineTurn_cases s
  · simp [hbusy] at hidle
  · have hlegal := (exists_decodeWord_iff_legal s.pending).1 ⟨i, hdec⟩
    simp [h] at hlegal
  · exact hturn

/-- A write to `CMD` while idle accepts the word (R27, R120). -/
theorem step_writeCmd_idle {s : State} (w : Word) (rest : List Event) (hidle : s.busy = false) :
    step (s.withInputs (writeEvent 0x000C#16 w :: rest)) =
      .next ((accept w (s.withInputs rest)).withResponse 0#32 false) := by
  rw [← issue_idle w (s := s.withInputs rest) hidle]
  exact step_writeEvent_csr s rest .cmd w

theorem accept_of_not_legal {w : Word} (h : legal w = false) (s : State) : accept w s = acceptCommon w s := by
  obtain ⟨r, hr⟩ := exists_decodeWord_error h
  exact accept_illegal hr s

/-- The words of R105 are not legal. -/
theorem legal_eq_false {w : Word}
    (h : 6 ≤ (opField w).toNat ∨ ((opField w).toNat ≤ 3 ∧ argField w ≠ 0#24)) : legal w = false := by
  rw [← Bool.not_eq_true, legal_iff]
  rintro (⟨hop, harg⟩ | hop)
  · rcases hop with hop | hop | hop | hop <;> simp [hop, harg] at h
  · rcases hop with hop | hop <;> simp [hop] at h

/-- Settles O26: the write is the acceptance without start effects, and the engine's turn is the error entry. -/
theorem illegalWordCompletesWithError : Obligations.IllegalWordCompletesWithError := by
  unfold Obligations.IllegalWordCompletesWithError
  intro s w rest hidle h
  have hillegal : legal w = false := legal_eq_false h
  have hwrite := step_writeCmd_idle w (.engine :: rest) hidle
  rw [accept_of_not_legal hillegal] at hwrite
  refine ⟨_, hwrite, rfl, ?_⟩
  exact engineTurn_illegal (s := (acceptCommon w (s.withInputs rest)).withResponse 0#32 false) rfl hillegal

end Sys2Proof.Machine
end

section
/-! PROOFS. Command issue, overrun and completion (spec 40_control.md R120 to R127): what a write to `CMD` does, what the
engine does at its turn, that every accepted command ends, and the housekeeping commands NOP and CLRFREQ. -/

namespace Sys2Proof.Machine

/-! ## Writes to CMD (R120 to R122) -/

section
variable {s : State} {w : Word} (rest : List Event)

/-- A write of a legal word while idle: the common part of acceptance, then the start effects (R120, R121). -/
theorem step_writeCmd_legal {i : Instr} (hidle : s.busy = false) (hdec : decodeWord w = .ok i) :
    step (s.withInputs (writeEvent 0x000C#16 w :: rest)) =
      .next ((startEffects i (acceptCommon w (s.withInputs rest))).withResponse 0#32 false) := by
  rw [step_writeCmd_idle w rest hidle, accept_legal hdec]

/-- A write of an illegal word while idle: the common part of acceptance alone (R105, R120). -/
theorem step_writeCmd_illegal (hidle : s.busy = false) (hillegal : legal w = false) :
    step (s.withInputs (writeEvent 0x000C#16 w :: rest)) =
      .next ((acceptCommon w (s.withInputs rest)).withResponse 0#32 false) := by
  rw [step_writeCmd_idle w rest hidle, accept_of_not_legal hillegal]

/-- A write to `CMD` while busy is dropped (R122). -/
theorem step_writeCmd_busy (w : Word) (hbusy : s.busy = true) :
    step (s.withInputs (writeEvent 0x000C#16 w :: rest)) =
      .next ((overrun (s.withInputs rest)).withResponse 0#32 false) := by
  rw [← issue_busy w (s := s.withInputs rest) hbusy]
  exact step_writeEvent_csr s rest .cmd w

end

/-- Settles O23: a legal word's write is `acceptCommon` and the start effects of the instruction it decodes to, an
illegal word's is `acceptCommon` alone. -/
theorem acceptanceAppliesStartEffects : Obligations.AcceptanceAppliesStartEffects := by
  unfold Obligations.AcceptanceAppliesStartEffects
  intro s w rest hidle
  refine ⟨_, rfl, ?_, ?_, ?_, fun hop => ?_, fun hop => ?_, fun hillegal => ?_⟩
  · rintro (rfl | rfl)
    · exact step_writeCmd_legal (i := .nop) rest hidle rfl
    · exact step_writeCmd_legal (i := .clrfreq) rest hidle rfl
  · rintro rfl
    exact step_writeCmd_legal (i := .build) rest hidle rfl
  · rintro rfl
    exact step_writeCmd_legal (i := .gencodes) rest hidle rfl
  · exact step_writeCmd_legal rest hidle (decodeWord_of_opField_encode hop)
  · exact step_writeCmd_legal rest hidle (decodeWord_of_opField_decode hop)
  · exact step_writeCmd_illegal rest hidle hillegal

/-- Settles O24: the write is `overrun`. -/
theorem overrunSetsOvrOnly : Obligations.OverrunSetsOvrOnly := by
  unfold Obligations.OverrunSetsOvrOnly
  exact fun _ w rest hbusy => step_writeCmd_busy rest w hbusy

/-! ## The engine's turn (R123, R127) -/

theorem step_engine (s : State) (rest : List Event) :
    step (s.withInputs (.engine :: rest)) = engineTurn (s.withInputs rest) := rfl

theorem step_noEvent (s : State) : step (s.withInputs []) = engineTurn (s.withInputs []) := rfl

theorem engineTurn_idle {s : State} (hidle : s.busy = false) : engineTurn s = .next s := by
  simp [engineTurn, hidle]

theorem engineTurn_legal {s : State} {i : Instr} (hbusy : s.busy = true) (hdec : decodeWord s.pending = .ok i) :
    engineTurn s = exec i s := by simp [engineTurn, complete, hbusy, hdec]

/-- After its turn the engine is idle, however the command ended (R123). -/
theorem engineTurn_endsIdle (s : State) : ∃ t, engineTurn s = .next t ∧ t.busy = false := by
  obtain ⟨hidle, e⟩ | ⟨-, i, -, e⟩ | ⟨-, -, -, e⟩ := engineTurn_cases s
  · exact ⟨s, e, hidle⟩
  · exact ⟨_, e.trans (exec_eq_finish i s), finish_busy _ _⟩
  · exact ⟨_, e, errorEntry_busy _ _ _ _⟩

/-- Settles O25: the step is the engine's turn, which runs the decoded word. -/
theorem stepRunsPendingCommand : Obligations.StepRunsPendingCommand := by
  unfold Obligations.StepRunsPendingCommand
  intro s i rest hbusy hdec
  rw [step_engine, step_noEvent]
  exact ⟨engineTurn_legal hbusy hdec, engineTurn_legal hbusy hdec⟩

/-- Settles O27: the step is the engine's turn, which is a stutter while idle. -/
theorem idleEngineChangesNothing : Obligations.IdleEngineChangesNothing := by
  unfold Obligations.IdleEngineChangesNothing
  intro s rest hidle
  rw [step_engine, step_noEvent]
  exact ⟨engineTurn_idle hidle, engineTurn_idle hidle⟩

/-! ## Every accepted command ends (R124) -/

@[simp] theorem accept_inputs (w : Word) (s : State) : (accept w s).inputs = s.inputs := by
  obtain ⟨i, -, e⟩ | ⟨-, e⟩ := accept_cases w s <;> rw [e]
  · cases i <;> rfl
  · rfl

@[simp] theorem runCommand_inputs (i : Instr) (s : State) : (runCommand i s).1.inputs = s.inputs := by
  obtain e | ⟨-, e⟩ | ⟨-, m, c, r, e⟩ | ⟨-, m, b, e⟩ | ⟨m, v, e⟩ | ⟨m, v, e⟩ := runCommand_cases i s <;>
    simp [e]

/-- A step consumes the next event, if there is one, and adds none. -/
theorem StepCase.inputs {s t : State} (h : StepCase s t) : t.inputs = s.inputs.tail := by
  cases h with
  | softReset => exact softReset_inputs _
  | accept => exact accept_inputs _ _
  | hardwareReset => exact hardwareReset_inputs _ _
  | complete => exact (finish_inputs _ _).trans (runCommand_inputs _ _)
  | respond | overrun | acknowledge | writeIe | writeFreq | writeSymbuf | writeBitbuf | idle | illegal => rfl

theorem run_succ {s t : State} (h : step s = .next t) (k : Nat) :
    Host.Core.run core (k + 1) s = Host.Core.run core k t := by
  have hstep : core.step s = .next t := h
  simp only [Host.Core.run, hstep]

/-- From every state, once every event is consumed and the engine has had one more turn, the engine is idle (R124; log
entries 1, 2). -/
theorem run_schedule_endsIdle (evs : List Event) {s : State} (hin : s.inputs = evs) :
    ∃ t, Host.Core.run core (evs.length + 1) s = .next t ∧ t.busy = false := by
  induction evs generalizing s with
  | nil =>
    obtain ⟨t, hturn, hidle⟩ := engineTurn_endsIdle s
    have hstep : step s = .next t := by rwa [step, stepOnce, hin]
    exact ⟨t, run_succ hstep 0, hidle⟩
  | cons ev rest ih =>
    obtain ⟨t, hstep, hcase⟩ := step_stepCase s
    obtain ⟨u, hrun, hidle⟩ := ih (s := t) (by rw [hcase.inputs, hin, List.tail_cons])
    exact ⟨u, (run_succ hstep _).trans hrun, hidle⟩

/-- Settles O29: the run through the whole schedule and one more turn of the engine ends idle. -/
theorem busyFallsWithinSchedule : Obligations.BusyFallsWithinSchedule := by
  unfold Obligations.BusyFallsWithinSchedule
  exact fun s _ => ⟨s.inputs.length + 1, Nat.le_refl _, run_schedule_endsIdle s.inputs rfl⟩

/-! ## NOP and CLRFREQ (R125, R126) -/

/-- A well-formed instruction has one word (R103). -/
theorem decodeWord_eq_ok_iff_eq_encode {i : Instr} (hwf : i.wf = true) {w : Word} :
    decodeWord w = .ok i ↔ w = encode i := by
  rw [decodeWord_eq_ok_iff, and_iff_right hwf, eq_comm]

/-- An argument on the opcode of a command that takes none makes the word decode to nothing (R103, R105). -/
theorem decodeWord_ne_ok_of_argField {w : Word} (hop : (opField w).toNat ≤ 3) (harg : argField w ≠ 0#24)
    (i : Instr) : decodeWord w ≠ .ok i := by
  intro hdec
  have hillegal : legal w = false := legal_eq_false (.inr ⟨hop, harg⟩)
  have hlegal : legal w = true := (exists_decodeWord_iff_legal w).1 ⟨i, hdec⟩
  exact Bool.false_ne_true (hillegal.symm.trans hlegal)

/-- Settles O30: NOP runs to `completeDone` of the same state. -/
theorem nopCompletes : Obligations.NopCompletes := by
  unfold Obligations.NopCompletes
  refine ⟨fun w hop => ⟨decodeWord_eq_ok_iff_eq_encode (i := .nop) rfl, ?_⟩, fun s => exec_eq_finish .nop s⟩
  exact decodeWord_ne_ok_of_argField (by rw [opField, hop]; decide)

theorem read_clearedFreq {y : Nat} (hy : y < 256) : clearedFreq.read y = 0#32 := by
  rw [clearedFreq, Memory.read]
  exact List.getD_replicate _ hy

theorem presentSymbols_clearedFreq : presentSymbols clearedFreq = [] :=
  List.eq_nil_iff_forall_not_mem.2 fun _ hy =>
    (mem_presentSymbols.1 hy).2 (read_clearedFreq (mem_presentSymbols.1 hy).1)

/-- BUILD over an empty table fails before it writes anything (R150, R154). -/
theorem exec_build_empty {s : State} (h : presentSymbols s.freq = []) :
    exec .build s = .next (errorEntry .emptyAlphabet 0#32 0#32 s) := by
  have hrun : runCommand .build s = (s, .fail .emptyAlphabet 0#32 0#32) := if_pos h
  rw [exec_eq_finish, hrun, finish_fail]

/-- Settles O31: CLRFREQ leaves `clearedFreq`, which has no present symbol. -/
theorem clrfreqCompletes : Obligations.ClrfreqCompletes := by
  unfold Obligations.ClrfreqCompletes
  refine ⟨fun w hop => ⟨decodeWord_eq_ok_iff_eq_encode (i := .clrfreq) rfl, ?_⟩, fun s =>
    ⟨clearedFreq, length_clearedFreq, fun _ hy => read_clearedFreq hy, exec_eq_finish .clrfreq s, fun u hu => ?_⟩⟩
  · exact decodeWord_ne_ok_of_argField (by rw [opField, hop]; decide)
  · exact exec_build_empty (hu ▸ presentSymbols_clearedFreq)

end Sys2Proof.Machine
end

section
/-! PROOFS. How BUILD ends (spec 41_tree_builder.md R150, R154): it fails on an empty table and on a sum above 32 bits,
and installs its tree on every other table. -/

namespace Sys2Proof.Machine

section
variable {s : State}

theorem presentSymbols_eq_nil_iff {freq : Memory Word} :
    presentSymbols freq = [] ↔ ∀ y < 256, freq.read y = 0#32 := by
  simp [presentSymbols, numSymbols]

/-- A table without present symbols sums to 0. -/
theorem presentSymbols_ne_nil_of_lt_totalFreq {freq : Memory Word} {k : Nat} (h : k < totalFreq freq) :
    presentSymbols freq ≠ [] := by
  intro hempty
  rw [← sum_presentSymbols, hempty] at h
  exact Nat.not_lt_zero k h

theorem exec_build_overflow (h : 0xFFFFFFFF < totalFreq s.freq) :
    exec .build s = .next (errorEntry .freqOverflow (BitVec.ofNat 32 (totalFreq s.freq))
      (BitVec.ofNat 32 (totalFreq s.freq / 2 ^ 32)) s) := by
  have hrun : runBuild s = _ := (if_neg (presentSymbols_ne_nil_of_lt_totalFreq h)).trans (if_pos h)
  rw [exec_eq_finish, runCommand, hrun, finish_fail]

theorem exec_build_tree (hne : presentSymbols s.freq ≠ []) (hsum : totalFreq s.freq ≤ 0xFFFFFFFF) :
    exec .build s = .next (completeDone (installTree (buildTree s.freq s.node) s)) := by
  have hrun : runBuild s = _ := (if_neg hne).trans (if_neg (Nat.not_lt.2 hsum))
  rw [exec_eq_finish, runCommand, hrun, finish]

end

/-- Settles O32: each failing table meets the check of its failure, and the sum of the checks is the table's sum. -/
theorem buildFailures : Obligations.BuildFailures := by
  unfold Obligations.BuildFailures
  intro s hwf
  obtain ⟨-, hfreq, -⟩ := (State.memoryWf_iff s).1 hwf
  rw [← totalFreq_eq_sum hfreq]
  refine ⟨fun hempty => exec_build_empty (presentSymbols_eq_nil_iff.2 hempty), fun hsum => ?_⟩
  have hlow : BitVec.ofNat 32 (totalFreq s.freq % 2 ^ 32) = BitVec.ofNat 32 (totalFreq s.freq) :=
    BitVec.eq_of_toNat_eq (by simp)
  rw [hlow]
  exact exec_build_overflow hsum

end Sys2Proof.Machine
end

section
/-! PROOFS. BUILD merges the ids of least key (spec 41_tree_builder.md R150, R151), and the tree that it makes is thereby
a function of the table (R156). -/

namespace Sys2Proof.Machine

/-! ## The least key -/

/-- The order of the keys is the lexicographic one (R151). -/
theorem keyLess_iff {a b : Nat × Nat} : keyLess a b = true ↔ toLex a < toLex b := by
  simp [keyLess, Prod.Lex.toLex_lt_toLex]

theorem keyLess_asymm {a b : Nat × Nat} (h : keyLess a b = true) : ¬keyLess b a = true := by
  rw [keyLess_iff] at h ⊢
  exact h.asymm

/-- `leastId` is one of the ids of least key. -/
theorem leastId_le (node : Memory Node) (x : Nat) (xs : List Nat) :
    ∀ y ∈ x :: xs, toLex (priorityKey node (leastId node x xs)) ≤ toLex (priorityKey node y) := by
  induction xs generalizing x with
  | nil =>
    intro y hy
    rw [List.mem_singleton.1 hy, leastId]
  | cons z zs ih =>
    rw [leastId]
    split
    · next hlt =>
      have hle := (keyLess_iff.1 hlt).le
      intro y hy
      obtain rfl | hy := List.mem_cons.1 hy
      · exact (ih z z List.mem_cons_self).trans hle
      · exact ih z y hy
    · next hnlt =>
      have hle := not_lt.1 (mt keyLess_iff.2 hnlt)
      intro y hy
      obtain rfl | hy := List.mem_cons.1 hy
      · exact ih y y List.mem_cons_self
      obtain rfl | hy := List.mem_cons.1 hy
      · exact (ih x x List.mem_cons_self).trans hle
      · exact ih x y (List.mem_cons_of_mem x hy)

/-- Keys are distinct (R151), so the id taken has a lower key than every other. -/
theorem extractLeast_keyLess {node : Memory Node} {ids ids' : List Nat} {a : Nat}
    (h : extractLeast node ids = some (a, ids')) {y : Nat} (hy : y ∈ ids) (hne : y ≠ a) :
    keyLess (priorityKey node a) (priorityKey node y) = true := by
  cases ids with
  | nil => cases h
  | cons x xs =>
    cases h
    have hkey : priorityKey node (leastId node x xs) ≠ priorityKey node y := fun e => hne (congrArg Prod.snd e).symm
    exact keyLess_iff.2 ((leastId_le node x xs y hy).lt_of_ne hkey)

/-- A merge takes the id of least key, then of the ids left the one of least key (R150). -/
theorem mergeOnce_eq_some_least {node node' : Memory Node} {ids ids' : List Nat} {next : Nat}
    (h : mergeOnce node ids next = some (node', ids')) :
    ∃ a b, a ∈ ids ∧ b ∈ ids.erase a ∧ node' = mergeNodes node a b next ∧
      (∀ x ∈ ids, x ≠ a → keyLess (priorityKey node a) (priorityKey node x) = true) ∧
      ∀ x ∈ ids.erase a, x ≠ b → keyLess (priorityKey node b) (priorityKey node x) = true := by
  unfold mergeOnce at h
  split at h
  · cases h
  · next a ids₁ ha =>
    split at h
    · cases h
    · next b ids₂ hb =>
      obtain ⟨hmem_a, rfl⟩ := extractLeast_eq_some ha
      cases h
      exact ⟨a, b, hmem_a, (extractLeast_eq_some hb).1, rfl, fun x => extractLeast_keyLess ha,
        fun x => extractLeast_keyLess hb⟩

/-! ## Merging the least keys -/

theorem childCount_eq_zero_iff {node : Memory Node} {n m i : Nat} :
    childCount node n m i = 0 ↔
      ∀ j < m, n ≤ j → (node.read j).left.toNat ≠ i ∧ (node.read j).right.toNat ≠ i := by
  simp [childCount]

theorem unmerged_iff {node : Memory Node} {n i x : Nat} :
    Unmerged node n i x ↔ x < i ∧ childCount node n i x = 0 := by
  rw [Unmerged, childCount_eq_zero_iff]

theorem unmerged_congr {node node' : Memory Node} {n i : Nat} (h : ∀ j < i, node'.read j = node.read j) (x : Nat) :
    Unmerged node' n i x ↔ Unmerged node n i x := by
  rw [unmerged_iff, unmerged_iff, childCount_congr h]

theorem priorityKey_congr {node node' : Memory Node} {x : Nat} (h : node'.read x = node.read x) :
    priorityKey node' x = priorityKey node x := by
  rw [priorityKey, priorityKey, h]

/-- The merge that makes node `i` takes the two unmerged ids of least key, the first as left child (R150, R151). -/
structure MergesLeast (node : Memory Node) (n i : Nat) : Prop where
  left : Unmerged node n i (node.read i).left.toNat
  right : Unmerged node n i (node.read i).right.toNat
  leftLeast : ∀ x, Unmerged node n i x → x ≠ (node.read i).left.toNat →
    keyLess (priorityKey node (node.read i).left.toNat) (priorityKey node x) = true
  rightNext : ∀ x, Unmerged node n i x → x ≠ (node.read i).left.toNat → x ≠ (node.read i).right.toNat →
    keyLess (priorityKey node (node.read i).right.toNat) (priorityKey node x) = true

/-- Whether node `i` is made of the least keys rests on the nodes up to it. -/
theorem MergesLeast.congr {node node' : Memory Node} {n i : Nat} (h : ∀ j ≤ i, node'.read j = node.read j)
    (hi : MergesLeast node n i) : MergesLeast node' n i := by
  have hunmerged := unmerged_congr (n := n) fun j hj => h j (Nat.le_of_lt hj)
  have hkey {x : Nat} (hx : Unmerged node n i x) : priorityKey node' x = priorityKey node x :=
    priorityKey_congr (h x (Nat.le_of_lt hx.1))
  constructor <;> simp only [h i (Nat.le_refl i), hunmerged, hkey hi.left, hkey hi.right]
  · exact hi.left
  · exact hi.right
  · intro x hx
    rw [hkey hx]
    exact hi.leftLeast x hx
  · intro x hx
    rw [hkey hx]
    exact hi.rightNext x hx

section
variable {n total : Nat} {leaf : Nat → Node} {node : Memory Node} {ids : List Nat} {next : Nat}

/-- The priority collection is the set of the unmerged ids. -/
theorem Merging.unmerged_iff (h : Merging n total leaf node ids next) (x : Nat) :
    Unmerged node n next x ↔ x ∈ ids := by
  rw [Machine.unmerged_iff]
  constructor
  · rintro ⟨hlt, hcount⟩
    by_contra hx
    rw [h.parents x hlt, if_neg hx] at hcount
    exact Nat.one_ne_zero hcount
  · exact fun hx => ⟨h.below x hx, (h.parents x (h.below x hx)).trans (if_pos hx)⟩

/-- A merge makes the new node of the least keys. -/
theorem Merging.mergesLeast_new (h : Merging n total leaf node ids next) {node' : Memory Node} {ids' : List Nat}
    (hm : mergeOnce node ids next = some (node', ids')) : MergesLeast node' n next := by
  obtain ⟨a, b, ha, hb, rfl, hleast_a, hleast_b⟩ := mergeOnce_eq_some_least hm
  obtain ⟨-, -, -, hid_a, hid_b⟩ := h.children ha hb
  have hold (x : Nat) (hx : x < next) := read_mergeNodes_old node a b hx
  have hkey {x : Nat} (hx : x ∈ ids) := priorityKey_congr (hold x (h.below x hx))
  have hb' := List.mem_of_mem_erase hb
  constructor <;>
    simp only [h.read_new ha hb, Node.left, Node.right, hid_a, hid_b, unmerged_congr hold, h.unmerged_iff,
      hkey ha, hkey hb']
  · exact ha
  · exact hb'
  · intro x hx hne
    rw [hkey hx]
    exact hleast_a x hx hne
  · intro x hx hne_a hne_b
    rw [hkey hx]
    exact hleast_b x ((List.mem_erase_of_ne hne_a).2 hx) hne_b

/-- What every merge keeps holds when the loop ends. -/
theorem mergeAll_keeps {P : Memory Node → List Nat → Nat → Prop}
    (hstep : ∀ node ids next node' ids', P node ids next → mergeOnce node ids next = some (node', ids') →
      P node' ids' (next + 1)) (rounds : Nat) (h : P node ids next) :
    P (mergeAll rounds node ids next).node (mergeAll rounds node ids next).ids
      (mergeAll rounds node ids next).next := by
  induction rounds generalizing node ids next with
  | zero => exact h
  | succ rounds ih =>
    rw [mergeAll]
    cases hm : mergeOnce node ids next with
    | none => exact h
    | some p => exact ih (hstep _ _ _ _ _ h hm)

/-- The loop makes every node of the least keys. -/
theorem Merging.mergesLeast_mergeAll (h : Merging n total leaf node ids next)
    (hleast : ∀ i < next, n ≤ i → MergesLeast node n i) (rounds : Nat) :
    ∀ i < (mergeAll rounds node ids next).next, n ≤ i →
      MergesLeast (mergeAll rounds node ids next).node n i := by
  refine (mergeAll_keeps (P := fun node ids next => Merging n total leaf node ids next ∧
    ∀ i < next, n ≤ i → MergesLeast node n i) ?_ rounds ⟨h, hleast⟩).2
  rintro node ids next node' ids' ⟨h, hleast⟩ hm
  refine ⟨(h.step hm).1, fun i hi hni => ?_⟩
  obtain hlt | rfl := Nat.lt_succ_iff_lt_or_eq.1 hi
  · obtain ⟨a, b, -, -, rfl, -⟩ := mergeOnce_eq_some hm
    exact (hleast i hlt hni).congr fun j hj => read_mergeNodes_old node a b (by omega)
  · exact h.mergesLeast_new hm

end

/-! ## Huffman trees -/

/-- NODE memory holds a tree over `n` symbols whose every merge took the least keys (R44, R150, R151). -/
structure HuffmanTree (node : Memory Node) (n : Nat) : Prop where
  valid : ValidTree node n
  mergesLeast : ∀ i < 2 * n - 1, n ≤ i → MergesLeast node n i

theorem buildTree_huffmanTree {freq : Memory Word} {node : Memory Node} (hlen : node.length = 511)
    (hne : presentSymbols freq ≠ []) (hsum : totalFreq freq ≤ 0xFFFFFFFF) :
    HuffmanTree (buildTree freq node).node (presentSymbols freq).length := by
  obtain ⟨hnext, -, -, -, -, hvalid, -⟩ := buildTree_spec hlen hne hsum rfl
  refine ⟨hvalid, ?_⟩
  rw [← hnext]
  exact (merging_init hlen hne hsum).mergesLeast_mergeAll (fun i hi hni => absurd hi (Nat.not_lt.2 hni)) _

/-- What BUILD leaves over `freq`: a Huffman tree over the present symbols, its size and its root (R150 to R153). -/
structure BuiltFrom (freq : Memory Word) (n : Nat) (t : State) : Prop where
  symbols : n = (presentSymbols freq).length
  pos : 1 ≤ n
  done : t.done = true
  count : t.nodeCount.toNat = 2 * n - 1
  root : t.root.toNat = 2 * n - 2
  leaves : ∀ i < n, t.node.read i = leafOf freq (presentSymbols freq) i
  tree : HuffmanTree t.node n

theorem BuiltFrom.leafCount_eq {freq : Memory Word} {n : Nat} {t : State} (h : BuiltFrom freq n t) :
    leafCount t = n := by
  have := h.count
  have := h.pos
  rw [leafCount]
  omega

theorem builtFrom_of_exec {s t : State} (hwf : s.memoryWf = true) (hne : presentSymbols s.freq ≠ [])
    (hsum : totalFreq s.freq ≤ 0xFFFFFFFF) (hexec : exec .build s = .next t) :
    BuiltFrom s.freq (presentSymbols s.freq).length t := by
  obtain ⟨-, -, hnode, -⟩ := (State.memoryWf_iff s).1 hwf
  obtain ⟨hnext, hids, hpos, hn, hleaves, -, -⟩ := buildTree_spec hnode hne hsum rfl
  rw [exec_build_tree hne hsum, installTree, hnext, hids] at hexec
  cases hexec
  exact
    { symbols := rfl
      pos := hpos
      done := rfl
      count := Nat.mod_eq_of_lt (by omega)
      root := Nat.mod_eq_of_lt (by simp; omega)
      leaves := hleaves
      tree := buildTree_huffmanTree hnode hne hsum }

/-- Settles O34: the loop keeps that every node made is of the least keys. -/
theorem buildMergesLeastKeys : Obligations.BuildMergesLeastKeys := by
  unfold Obligations.BuildMergesLeastKeys
  rintro s t hwf ⟨y, hy, hcount⟩ hsum hexec i hi hni
  obtain ⟨-, hfreq, -⟩ := (State.memoryWf_iff s).1 hwf
  have hne : presentSymbols s.freq ≠ [] := List.ne_nil_of_mem (mem_presentSymbols.2 ⟨hy, hcount⟩)
  rw [← totalFreq_eq_sum hfreq] at hsum
  have hbuilt := builtFrom_of_exec hwf hne hsum hexec
  rw [hbuilt.count] at hi
  rw [hbuilt.leafCount_eq] at hni ⊢
  obtain ⟨hleft, hright, hleast, hnext⟩ := hbuilt.tree.mergesLeast i hi hni
  exact ⟨hleft, hright, fun x hx hne => ⟨hleast x hx hne, hnext x hx hne⟩⟩

/-! ## One table, one tree -/

/-- An internal node is its frequency and its children. -/
theorem Node.eq_of_fields {u v : Node} (hu : u.isLeaf = false) (hv : v.isLeaf = false) (hfreq : u.freq = v.freq)
    (hleft : u.left = v.left) (hright : u.right = v.right) : u = v := by
  cases u with
  | leaf => cases hu
  | internal =>
    cases v with
    | leaf => cases hv
    | internal => exact congr (congrArg₂ Node.internal hfreq hleft) hright

/-- Over the same earlier nodes there is one merge of the least keys: R151 leaves no choice. -/
theorem MergesLeast.children_eq {node node' : Memory Node} {n i : Nat} (h : MergesLeast node n i)
    (h' : MergesLeast node' n i) (hne : (node.read i).left ≠ (node.read i).right)
    (hne' : (node'.read i).left ≠ (node'.read i).right) (hold : ∀ j < i, node'.read j = node.read j) :
    (node'.read i).left = (node.read i).left ∧ (node'.read i).right = (node.read i).right := by
  have hunmerged := unmerged_congr (n := n) hold
  have hkey {x : Nat} (hx : Unmerged node n i x) : priorityKey node' x = priorityKey node x :=
    priorityKey_congr (hold x hx.1)
  have hl := (hunmerged _).1 h'.left
  have hr := (hunmerged _).1 h'.right
  have hleft : (node'.read i).left = (node.read i).left := by
    by_contra hdiff
    have hlt := h.leftLeast _ hl (BitVec.toNat_ne.1 hdiff)
    have hgt := h'.leftLeast _ ((hunmerged _).2 h.left) (BitVec.toNat_ne.1 (Ne.symm hdiff))
    rw [hkey hl, hkey h.left] at hgt
    exact keyLess_asymm hlt hgt
  refine ⟨hleft, ?_⟩
  by_contra hdiff
  rw [hleft] at hne'
  have hlt := h.rightNext _ hr (BitVec.toNat_ne.1 hne'.symm) (BitVec.toNat_ne.1 hdiff)
  have hgt := h'.rightNext _ ((hunmerged _).2 h.right) (by rw [hleft]; exact BitVec.toNat_ne.1 hne.symm)
    (BitVec.toNat_ne.1 (Ne.symm hdiff))
  rw [hkey hr, hkey h.right] at hgt
  exact keyLess_asymm hlt hgt

/-- Two Huffman trees over the same leaves are the same tree. -/
theorem HuffmanTree.read_eq {node node' : Memory Node} {n : Nat} (h : HuffmanTree node n)
    (h' : HuffmanTree node' n) (hleaves : ∀ i < n, node'.read i = node.read i) :
    ∀ i < 2 * n - 1, node'.read i = node.read i := by
  intro i
  induction i using Nat.strong_induction_on with
  | _ i ih =>
    intro hi
    by_cases hni : i < n
    · exact hleaves i hni
    have hold : ∀ j < i, node'.read j = node.read j := fun j hj => ih j hj (hj.trans hi)
    obtain ⟨hint, hl, hr, hne, hfreq⟩ := h.valid.2.2.1 i hi (Nat.not_lt.1 hni)
    obtain ⟨hint', -, -, hne', hfreq'⟩ := h'.valid.2.2.1 i hi (Nat.not_lt.1 hni)
    obtain ⟨hleft, hright⟩ := (h.mergesLeast i hi (Nat.not_lt.1 hni)).children_eq
      (h'.mergesLeast i hi (Nat.not_lt.1 hni)) hne hne' hold
    refine Node.eq_of_fields hint' hint (BitVec.eq_of_toNat_eq ?_) hleft hright
    rw [hfreq', hfreq, hleft, hright, hold _ hl, hold _ hr]

/-- Settles O35: the checks read FREQ only, and a table has one Huffman tree. -/
theorem buildDependsOnFreqOnly : Obligations.BuildDependsOnFreqOnly := by
  unfold Obligations.BuildDependsOnFreqOnly
  intro s s' t t' hwf hwf' hfreq hdone hdone' hexec hexec'
  by_cases hempty : presentSymbols s.freq = []
  · rw [exec_build_empty hempty] at hexec
    rw [exec_build_empty (hfreq ▸ hempty)] at hexec'
    cases hexec
    cases hexec'
    simp [errorEntry, hdone, hdone']
  by_cases hsum : totalFreq s.freq ≤ 0xFFFFFFFF
  · have h := builtFrom_of_exec hwf hempty hsum hexec
    have h' := builtFrom_of_exec hwf' (hfreq ▸ hempty) (hfreq ▸ hsum) hexec'
    rw [← hfreq] at h'
    refine ⟨h.done.trans h'.done.symm, fun _ => ⟨?_, ?_, fun i hi => ?_⟩, fun hfail => ?_⟩
    · exact BitVec.eq_of_toNat_eq (h.count.trans h'.count.symm)
    · exact BitVec.eq_of_toNat_eq (h.root.trans h'.root.symm)
    · rw [h.count] at hi
      exact h'.tree.read_eq h.tree (fun j hj => (h.leaves j hj).trans (h'.leaves j hj).symm) i hi
    · exact absurd (h.done.symm.trans hfail) (by decide)
  · rw [exec_build_overflow (Nat.lt_of_not_le hsum)] at hexec
    rw [exec_build_overflow (hfreq ▸ Nat.lt_of_not_le hsum), ← hfreq] at hexec'
    cases hexec
    cases hexec'
    simp [errorEntry, hdone, hdone']

end Sys2Proof.Machine
end

section
/-! PROOFS. Kraft's inequality for a code in which no codeword begins another, and one step of Huffman's argument on code
lengths: merging the two ids of least weight (spec 41_tree_builder.md R155). -/

namespace Sys2Proof.Machine

/-! ## Kraft's inequality -/

/-- If no word begins another and none is empty, the first word of a concatenation is determined. -/
theorem uniquelyDecodable_of_prefixFree {S : Set BitString} (hnil : [] ∉ S)
    (hfree : ∀ u ∈ S, ∀ v ∈ S, u <+: v → u = v) : InformationTheory.UniquelyDecodable S := by
  have hempty (L : List BitString) (hL : ∀ w ∈ L, w ∈ S) (h : L.flatten = []) : L = [] := by
    cases L with
    | nil => rfl
    | cons w L =>
      obtain ⟨rfl, -⟩ := List.append_eq_nil_iff.1 h
      exact absurd (hL [] List.mem_cons_self) hnil
  intro L₁
  induction L₁ with
  | nil => exact fun L₂ _ h₂ h => (hempty L₂ h₂ h.symm).symm
  | cons u L₁ ih =>
    intro L₂ h₁ h₂ h
    cases L₂ with
    | nil => exact hempty _ h₁ h
    | cons v L₂ =>
      rw [List.forall_mem_cons] at h₁ h₂
      rw [List.flatten_cons, List.flatten_cons] at h
      have huv : u = v := by
        obtain hp | hp := List.prefix_or_prefix_of_prefix (h ▸ List.prefix_append u _) (List.prefix_append v _)
        · exact hfree u h₁.1 v h₂.1 hp
        · exact (hfree v h₂.1 u h₁.1 hp).symm
      subst huv
      rw [ih L₂ h₁.2 h₂.2 (List.append_cancel_left h)]

/-- The lengths are at most `N` and meet Kraft's inequality, here times `2 ^ N`. -/
def Kraft (N : Nat) (P : Finset Nat) (len : Nat → Nat) : Prop :=
  (∀ x ∈ P, len x ≤ N) ∧ ∑ x ∈ P, 2 ^ (N - len x) ≤ 2 ^ N

/-- If no codeword of at least two ids begins another, the code lengths meet Kraft's inequality. -/
theorem exists_kraft_of_prefixFree {P : Finset Nat} {code : Nat → BitString} (htwo : P.Nontrivial)
    (hfree : ∀ x ∈ P, ∀ y ∈ P, x ≠ y → ¬(code x <+: code y)) : ∃ N, Kraft N P (fun x => (code x).length) := by
  have hinj : Set.InjOn code P := fun x hx y hy e => by
    by_contra hne
    exact hfree x hx y hy hne (e ▸ List.prefix_rfl)
  have hdec : InformationTheory.UniquelyDecodable (P.image code : Set BitString) := by
    apply uniquelyDecodable_of_prefixFree
    · simp only [Finset.coe_image, Set.mem_image, not_exists, not_and]
      intro x hx e
      obtain ⟨y, hy, hne⟩ := htwo.exists_ne x
      exact hfree x hx y hy hne.symm (e ▸ List.nil_prefix)
    · simp only [Finset.coe_image, Set.forall_mem_image]
      intro x hx y hy hpre
      by_contra hne
      exact hfree x hx y hy (fun e => hne (congrArg code e)) hpre
  have hkraft := InformationTheory.kraft_mcmillan_inequality hdec
  rw [Finset.sum_image hinj, Fintype.card_bool] at hkraft
  obtain ⟨N, hle⟩ : ∃ N, ∀ x ∈ P, (code x).length ≤ N :=
    ⟨P.sup (fun x => (code x).length), fun x hx => Finset.le_sup (f := fun x => (code x).length) hx⟩
  refine ⟨N, hle, ?_⟩
  have hscaled := mul_le_mul_of_nonneg_left hkraft (pow_nonneg zero_le_two N)
  rw [Finset.mul_sum, mul_one] at hscaled
  have hreal : ∑ x ∈ P, (2 : ℝ) ^ (N - (code x).length) ≤ 2 ^ N := by
    refine le_of_eq_of_le (Finset.sum_congr rfl fun x hx => ?_) hscaled
    rw [pow_sub₀ _ two_ne_zero (hle x hx)]
    simp
  exact_mod_cast hreal

/-! ## Exchanging lengths -/

/-- The weighted length of a code. -/
def cost (w len : Nat → Nat) (P : Finset Nat) : Nat := ∑ x ∈ P, w x * len x

theorem cost_erase (w len : Nat → Nat) {P : Finset Nat} {a : Nat} (ha : a ∈ P) :
    w a * len a + cost w len (P.erase a) = cost w len P := Finset.add_sum_erase P (fun x => w x * len x) ha

theorem cost_insert (w len : Nat → Nat) {P : Finset Nat} {c : Nat} (hc : c ∉ P) :
    cost w len (insert c P) = w c * len c + cost w len P := Finset.sum_insert hc

theorem cost_congr (w : Nat → Nat) {len len' : Nat → Nat} {P : Finset Nat} (h : ∀ x ∈ P, len x = len' x) :
    cost w len P = cost w len' P := Finset.sum_congr rfl fun x hx => by rw [h x hx]

theorem swap_mem_iff {P : Finset Nat} {a m : Nat} (ha : a ∈ P) (hm : m ∈ P) (x : Nat) :
    x ∈ P ↔ Equiv.swap a m x ∈ P := by
  rw [Equiv.swap_apply_def]
  split_ifs with hxa hxm
  · exact iff_of_true (hxa ▸ ha) hm
  · exact iff_of_true (hxm ▸ hm) ha
  · rfl

/-- Giving the lighter of two ids the longer of their codewords costs no more. -/
theorem cost_swap_le {w len : Nat → Nat} {P : Finset Nat} {a m : Nat} (ha : a ∈ P) (hm : m ∈ P) (hw : w a ≤ w m)
    (hlen : len a ≤ len m) : cost w (fun x => len (Equiv.swap a m x)) P ≤ cost w len P := by
  obtain rfl | hne := eq_or_ne a m
  · simp
  have hm' : m ∈ P.erase a := Finset.mem_erase.2 ⟨hne.symm, hm⟩
  have hrest : cost w (fun x => len (Equiv.swap a m x)) ((P.erase a).erase m) = cost w len ((P.erase a).erase m) := by
    refine cost_congr w fun x hx => ?_
    obtain ⟨hxm, hx⟩ := Finset.mem_erase.1 hx
    rw [Equiv.swap_apply_of_ne_of_ne (Finset.ne_of_mem_erase hx) hxm]
  rw [← cost_erase w len ha, ← cost_erase w len hm', ← cost_erase w _ ha, ← cost_erase w _ hm', hrest,
    Equiv.swap_apply_left, Equiv.swap_apply_right]
  have := mul_add_mul_le_mul_add_mul hw hlen
  omega

/-- The lengths can be dealt out anew, at no higher cost, so that an id of least weight has the longest. -/
theorem exists_longest_at {w : Nat → Nat} (len : Nat → Nat) {P : Finset Nat} {a : Nat} (ha : a ∈ P)
    (hw : ∀ x ∈ P, w a ≤ w x) :
    ∃ len', (∀ x ∈ P, len' x ≤ len' a) ∧ (∀ x ∈ P, ∃ y ∈ P, len' x = len y) ∧
      (∀ g : Nat → Nat, ∑ x ∈ P, g (len' x) = ∑ x ∈ P, g (len x)) ∧ cost w len' P ≤ cost w len P := by
  obtain ⟨m, hm, hmax⟩ := P.exists_max_image len ⟨a, ha⟩
  have hmem := swap_mem_iff ha hm
  refine ⟨fun x => len (Equiv.swap a m x), fun x hx => ?_, fun x hx => ⟨_, (hmem x).1 hx, rfl⟩, fun g => ?_,
    cost_swap_le ha hm (hw m hm) (hmax a ha)⟩
  · simpa only [Equiv.swap_apply_left] using hmax _ ((hmem x).1 hx)
  · exact Finset.sum_equiv (Equiv.swap a m) hmem fun _ _ => rfl

/-! ## One merge -/

/-- Multiples of `d` that are not equal are `d` apart. -/
theorem add_le_of_dvd_of_lt {d u v : Nat} (hu : d ∣ u) (hv : d ∣ v) (h : u < v) : u + d ≤ v := by
  obtain ⟨k, rfl⟩ := hu
  obtain ⟨l, rfl⟩ := hv
  rw [← Nat.mul_succ]
  exact Nat.mul_le_mul_left d (Nat.lt_of_mul_lt_mul_left h)

/-- A codeword of length `l` may have length `m`, if `m` is the longest length of the others. -/
theorem kraft_shorten_longest {N l m : Nat} {R : Finset Nat} {len : Nat → Nat}
    (hR : ∀ x ∈ R, len x ≤ m) (h : 2 ^ (N - l) + (2 ^ (N - m) + ∑ x ∈ R, 2 ^ (N - len x)) ≤ 2 ^ N) :
    2 ^ (N - m) + (2 ^ (N - m) + ∑ x ∈ R, 2 ^ (N - len x)) ≤ 2 ^ N := by
  have hdvd : 2 ^ (N - m) ∣ 2 ^ (N - m) + ∑ x ∈ R, 2 ^ (N - len x) :=
    (Nat.dvd_refl _).add (Finset.dvd_sum fun x hx => Nat.pow_dvd_pow 2 (Nat.sub_le_sub_left (hR x hx) N))
  have hpos := Nat.two_pow_pos (N - l)
  have := add_le_of_dvd_of_lt hdvd (Nat.pow_dvd_pow 2 (Nat.sub_le N m)) (by omega)
  omega

/-- Two codewords of one length give their place to one that is a bit shorter. -/
theorem two_pow_sub_pred {N m k : Nat} (hm : m ≤ N) (h : 2 ^ (N - m) + (2 ^ (N - m) + k) ≤ 2 ^ N) :
    1 ≤ m ∧ 2 ^ (N - (m - 1)) = 2 ^ (N - m) + 2 ^ (N - m) := by
  have hpos := Nat.two_pow_pos N
  have h1 : 1 ≤ m := by
    by_contra h0
    obtain rfl : m = 0 := by omega
    simp only [Nat.sub_zero] at h
    omega
  refine ⟨h1, ?_⟩
  rw [show N - (m - 1) = (N - m) + 1 by omega, pow_succ, mul_two]

/-- Huffman's step: from lengths for ids of which `a` and `b` are the lightest come lengths for the ids after their
merge into `c`, and one bit more for both costs no more than the lengths did. -/
theorem exists_merged_lengths {N : Nat} {P : Finset Nat} {w len : Nat → Nat} {a b c : Nat} (ha : a ∈ P)
    (hb : b ∈ P.erase a) (hwa : ∀ x ∈ P, w a ≤ w x) (hwb : ∀ x ∈ P.erase a, w b ≤ w x)
    (hc : c ∉ (P.erase a).erase b) (hwc : w c = w a + w b) (h : Kraft N P len) :
    ∃ len', Kraft N (insert c ((P.erase a).erase b)) len' ∧
      cost w len' (insert c ((P.erase a).erase b)) + w c ≤ cost w len P := by
  obtain ⟨len₁, hmax₁, hval₁, hsum₁, hcost₁⟩ := exists_longest_at len ha hwa
  obtain ⟨len₂, hmax₂, hval₂, hsum₂, hcost₂⟩ := exists_longest_at len₁ hb hwb
  have hle : len₂ b ≤ len₁ a ∧ len₂ b ≤ N := by
    obtain ⟨x, hx, e⟩ := hval₂ b hb
    obtain ⟨y, hy, e'⟩ := hval₁ x (Finset.mem_of_mem_erase hx)
    exact ⟨e.trans_le (hmax₁ x (Finset.mem_of_mem_erase hx)), (e.trans e').trans_le (h.1 y hy)⟩
  have hmax : ∀ x ∈ (P.erase a).erase b, len₂ x ≤ len₂ b := fun x hx => hmax₂ x (Finset.mem_of_mem_erase hx)
  have hkraft : 2 ^ (N - len₁ a) + (2 ^ (N - len₂ b) + ∑ x ∈ (P.erase a).erase b, 2 ^ (N - len₂ x)) ≤ 2 ^ N := by
    rw [Finset.add_sum_erase _ (fun x => 2 ^ (N - len₂ x)) hb, hsum₂ (fun k => 2 ^ (N - k)),
      Finset.add_sum_erase _ (fun x => 2 ^ (N - len₁ x)) ha, hsum₁ (fun k => 2 ^ (N - k))]
    exact h.2
  replace hkraft := kraft_shorten_longest hmax hkraft
  obtain ⟨hpos, hpow⟩ := two_pow_sub_pred hle.2 hkraft
  have hother : ∀ x ∈ (P.erase a).erase b, Function.update len₂ c (len₂ b - 1) x = len₂ x := fun x hx =>
    Function.update_of_ne (ne_of_mem_of_not_mem hx hc) _ _
  refine ⟨Function.update len₂ c (len₂ b - 1), ⟨Finset.forall_mem_insert _ _ _ |>.2 ⟨?_, fun x hx => ?_⟩, ?_⟩, ?_⟩
  · rw [Function.update_self]
    omega
  · rw [hother x hx]
    exact (hmax x hx).trans hle.2
  · rw [Finset.sum_insert hc, Function.update_self, hpow, Finset.sum_congr rfl fun x hx => by rw [hother x hx]]
    omega
  · rw [cost_insert w _ hc, Function.update_self, cost_congr w hother]
    calc w c * (len₂ b - 1) + cost w len₂ ((P.erase a).erase b) + w c
        = w a * len₂ b + (w b * len₂ b + cost w len₂ ((P.erase a).erase b)) := by
          obtain ⟨m, hm⟩ := Nat.exists_eq_add_of_le' hpos
          rw [hm, Nat.add_sub_cancel, hwc]
          ring
      _ ≤ w a * len₁ a + cost w len₁ (P.erase a) := by
          rw [cost_erase w len₂ hb]
          exact Nat.add_le_add (Nat.mul_le_mul_left _ hle.1) hcost₂
      _ ≤ cost w len P := (cost_erase w len₁ ha).trans_le hcost₁

end Sys2Proof.Machine
end

section
/-! PROOFS. A Huffman tree minimises the weighted length among all codes in which no codeword begins another (spec
41_tree_builder.md R155): the merges are run backwards, from the root's id alone to the leaves. -/

namespace Sys2Proof.Machine

/-! ## The priority collection, read from the tree -/

/-- The ids that are unmerged when node `i` is made (R150). -/
def collection (node : Memory Node) (n i : Nat) : Finset Nat :=
  (Finset.range i).filter (fun x => childCount node n i x = 0)

theorem mem_collection {node : Memory Node} {n i x : Nat} : x ∈ collection node n i ↔ Unmerged node n i x := by
  rw [collection, Finset.mem_filter, Finset.mem_range, unmerged_iff]

/-- Before the first merge the collection is that of the leaves. -/
theorem collection_leaves (node : Memory Node) (n : Nat) : collection node n n = Finset.range n := by
  ext x
  rw [mem_collection, Finset.mem_range, Unmerged, and_iff_left_iff_imp]
  exact fun _ j hj hnj => absurd hj (Nat.not_lt.2 hnj)

/-- The frequency of a node as its weight. -/
def weight (node : Memory Node) (x : Nat) : Nat := (node.read x).freq.toNat

theorem weight_le_of_keyLess {node : Memory Node} {x y : Nat}
    (h : keyLess (priorityKey node x) (priorityKey node y) = true) : weight node x ≤ weight node y := by
  obtain hlt | ⟨heq, -⟩ := Prod.Lex.toLex_lt_toLex.1 (keyLess_iff.1 h)
  · exact hlt.le
  · exact heq.le

section
variable {node : Memory Node} {n i : Nat} (h : HuffmanTree node n)
include h

section
variable (hi : i < 2 * n - 1) (hni : n ≤ i)
include hi hni

/-- The sound internal node that R44 asks for. -/
theorem HuffmanTree.internalOk : InternalOk node i := h.valid.2.2.1 i hi hni

theorem HuffmanTree.weight_eq :
    weight node i = weight node (node.read i).left.toNat + weight node (node.read i).right.toNat := by
  obtain ⟨-, -, -, -, hfreq⟩ := h.internalOk hi hni
  exact hfreq

theorem HuffmanTree.left_mem : (node.read i).left.toNat ∈ collection node n i :=
  mem_collection.2 (h.mergesLeast i hi hni).left

theorem HuffmanTree.right_mem :
    (node.read i).right.toNat ∈ (collection node n i).erase (node.read i).left.toNat := by
  obtain ⟨-, -, -, hne, -⟩ := h.internalOk hi hni
  exact Finset.mem_erase.2 ⟨BitVec.toNat_ne.1 hne.symm, mem_collection.2 (h.mergesLeast i hi hni).right⟩

theorem HuffmanTree.weight_left_le :
    ∀ x ∈ collection node n i, weight node (node.read i).left.toNat ≤ weight node x := by
  intro x hx
  by_cases hxl : x = (node.read i).left.toNat
  · rw [hxl]
  · exact weight_le_of_keyLess ((h.mergesLeast i hi hni).leftLeast x (mem_collection.1 hx) hxl)

theorem HuffmanTree.weight_right_le : ∀ x ∈ (collection node n i).erase (node.read i).left.toNat,
    weight node (node.read i).right.toNat ≤ weight node x := by
  intro x hx
  obtain ⟨hxl, hx⟩ := Finset.mem_erase.1 hx
  by_cases hxr : x = (node.read i).right.toNat
  · rw [hxr]
  · exact weight_le_of_keyLess ((h.mergesLeast i hi hni).rightNext x (mem_collection.1 hx) hxl hxr)

/-- A merge puts the new node in the place of its children (R150). -/
theorem HuffmanTree.collection_succ : collection node n (i + 1) =
    insert i (((collection node n i).erase (node.read i).left.toNat).erase (node.read i).right.toNat) := by
  obtain ⟨-, hl, hr, -, -⟩ := h.internalOk hi hni
  have hnew : childCount node n i i = 0 := childCount_eq_zero fun j hj hnj => by
    obtain ⟨-, hl, hr, -, -⟩ := h.internalOk (hj.trans hi) hnj
    exact ⟨by omega, by omega⟩
  ext x
  simp only [collection, Finset.mem_insert, Finset.mem_erase, Finset.mem_filter, Finset.mem_range,
    childCount_succ _ hni]
  obtain rfl | hne := eq_or_ne x i
  · simp [hnew, hl.ne, hr.ne]
  · have hlt : x < i + 1 ↔ x < i := by omega
    simp only [hne, hlt, false_or, Nat.add_eq_zero_iff, ite_eq_right_iff, one_ne_zero, imp_false, not_or, ne_eq,
      eq_comm (a := x)]
    tauto

end

/-- No id but the root's is left when all merges are made. -/
theorem HuffmanTree.eq_root_of_mem_collection {x : Nat} (hx : x ∈ collection node n (2 * n - 1)) :
    x = 2 * n - 2 := by
  obtain ⟨-, -, -, hparent⟩ := h.valid
  obtain ⟨hlt, hcount⟩ := unmerged_iff.1 (mem_collection.1 hx)
  by_contra hne
  have hone := hparent x (by omega)
  rw [parentCount_eq_childCount, hcount] at hone
  exact Nat.zero_ne_one hone

end

/-! ## The depth of a node -/

/-- `d` gives the root depth 0 and the children of the nodes from `k` on the depth of their parent and one more. -/
structure IsDepth (node : Memory Node) (n k : Nat) (d : Nat → Nat) : Prop where
  root : d (2 * n - 2) = 0
  left : ∀ i < 2 * n - 1, k ≤ i → d (node.read i).left.toNat = d i + 1
  right : ∀ i < 2 * n - 1, k ≤ i → d (node.read i).right.toNat = d i + 1

/-- The depths `d`, with those of the children of `i` set to one more than that of `i`. -/
def withChildDepth (node : Memory Node) (i : Nat) (d : Nat → Nat) (x : Nat) : Nat :=
  if (node.read i).left.toNat = x ∨ (node.read i).right.toNat = x then d i + 1 else d x

theorem IsDepth.withChildDepth {node : Memory Node} {n k : Nat} {d : Nat → Nat} (h : HuffmanTree node n)
    (hk : k < 2 * n - 1) (hnk : n ≤ k) (hd : IsDepth node n (k + 1) d) :
    IsDepth node n k (withChildDepth node k d) := by
  obtain ⟨-, hl, hr, -, -⟩ := h.internalOk hk hnk
  have hlater : ∀ i, k ≤ i → Machine.withChildDepth node k d i = d i := fun i hi => if_neg (by omega)
  have hunmerged {i x : Nat} (hi : k < i) (hx : Unmerged node n i x) : Machine.withChildDepth node k d x = d x :=
    if_neg (not_or.2 (hx.2 k hi hnk))
  refine ⟨(hlater _ (by omega)).trans hd.root, fun i hi hki => ?_, fun i hi hki => ?_⟩
  · rw [hlater i hki]
    obtain rfl | hlt := Nat.eq_or_lt_of_le hki
    · exact if_pos (.inl rfl)
    · rw [hunmerged hlt (h.mergesLeast i hi (hnk.trans hki)).left, hd.left i hi hlt]
  · rw [hlater i hki]
    obtain rfl | hlt := Nat.eq_or_lt_of_le hki
    · exact if_pos (.inr rfl)
    · rw [hunmerged hlt (h.mergesLeast i hi (hnk.trans hki)).right, hd.right i hi hlt]

/-- Every node of a Huffman tree has a depth. -/
theorem HuffmanTree.exists_isDepth {node : Memory Node} {n : Nat} (h : HuffmanTree node n) (hn : 1 ≤ n) :
    ∃ d, IsDepth node n n d := by
  refine Nat.decreasingInduction' (P := fun k => ∃ d, IsDepth node n k d) (n := 2 * n - 1) ?_ (by omega) ?_
  · rintro k hk hnk ⟨d, hd⟩
    exact ⟨_, hd.withChildDepth h hk hnk⟩
  · exact ⟨fun _ => 0, rfl, fun i hi hki => absurd hi (Nat.not_lt.2 hki),
      fun i hi hki => absurd hi (Nat.not_lt.2 hki)⟩

/-- Along a path the depth grows with its length. -/
theorem IsDepth.of_follow {node : Memory Node} {n : Nat} {d : Nat → Nat} (h : HuffmanTree node n)
    (hd : IsDepth node n n d) {p : BitString} {x y : NodeId} (hx : x.toNat < 2 * n - 1)
    (hf : follow node x p = some y) : y.toNat < 2 * n - 1 ∧ d y.toNat = d x.toNat + p.length := by
  induction p generalizing x with
  | nil =>
    cases hf
    exact ⟨hx, rfl⟩
  | cons b p ih =>
    obtain ⟨f, l, r, hread, hf⟩ := follow_cons hf
    have hnx : n ≤ x.toNat := by
      by_contra hlt
      have hleaf := h.valid.1 x.toNat (Nat.lt_of_not_le hlt)
      rw [hread] at hleaf
      cases hleaf
    obtain ⟨-, hl, hr, -, -⟩ := h.internalOk hx hnx
    have hdl := hd.left x.toNat hx hnx
    have hdr := hd.right x.toNat hx hnx
    rw [hread] at hl hr hdl hdr
    have hchild : (if b then r else l).toNat < 2 * n - 1 ∧ d (if b then r else l).toNat = d x.toNat + 1 := by
      cases b
      · exact ⟨hl.trans hx, hdl⟩
      · exact ⟨hr.trans hx, hdr⟩
    obtain ⟨hy, hdy⟩ := ih hchild.1 hf
    exact ⟨hy, by rw [hdy, hchild.2, List.length_cons]; omega⟩

/-! ## Optimality -/

/-- At every merge the depths cost no more than any lengths that meet Kraft's inequality. -/
theorem HuffmanTree.cost_depth_le {node : Memory Node} {n N : Nat} {d : Nat → Nat} (h : HuffmanTree node n)
    (hn : 1 ≤ n) (hd : IsDepth node n n d) : ∀ len, Kraft N (collection node n n) len →
      cost (weight node) d (collection node n n) ≤ cost (weight node) len (collection node n n) := by
  refine Nat.decreasingInduction' (n := 2 * n - 1) (P := fun k => ∀ len, Kraft N (collection node n k) len →
    cost (weight node) d (collection node n k) ≤ cost (weight node) len (collection node n k)) ?_ (by omega) ?_
  · intro k hk hnk ih len hlen
    have hleft := h.left_mem hk hnk
    have hright := h.right_mem hk hnk
    have hnew : k ∉ ((collection node n k).erase (node.read k).left.toNat).erase (node.read k).right.toNat :=
      fun hmem => Nat.lt_irrefl k
        (mem_collection.1 (Finset.mem_of_mem_erase (Finset.mem_of_mem_erase hmem))).1
    have hweight := h.weight_eq hk hnk
    obtain ⟨len', hkraft, hcost⟩ := exists_merged_lengths hleft hright (h.weight_left_le hk hnk)
      (h.weight_right_le hk hnk) hnew hweight hlen
    rw [h.collection_succ hk hnk] at ih
    have hle := ih len' hkraft
    rw [cost_insert _ _ hnew, hweight, Nat.add_mul] at hle
    rw [← cost_erase _ d hleft, ← cost_erase _ d hright, hd.left k hk hnk, hd.right k hk hnk, Nat.mul_succ,
      Nat.mul_succ]
    omega
  · intro len hlen
    have hzero : cost (weight node) d (collection node n (2 * n - 1)) = 0 :=
      Finset.sum_eq_zero fun x hx => by rw [h.eq_root_of_mem_collection hx, hd.root, Nat.mul_zero]
    rw [hzero]
    exact Nat.zero_le _

/-- The depths of the leaves cost no more than a code of the leaves in which no codeword begins another. -/
theorem HuffmanTree.cost_depth_le_code {node : Memory Node} {n : Nat} {d : Nat → Nat} (h : HuffmanTree node n)
    (hn : 2 ≤ n) (hd : IsDepth node n n d) {code : Nat → BitString}
    (hfree : ∀ x < n, ∀ y < n, x ≠ y → ¬(code x <+: code y)) :
    cost (weight node) d (Finset.range n) ≤ cost (weight node) (fun x => (code x).length) (Finset.range n) := by
  obtain ⟨N, hkraft⟩ := exists_kraft_of_prefixFree (P := Finset.range n) (code := code)
    (Finset.nontrivial_def.2 ⟨0, by simp; omega, 1, by simp; omega, Nat.zero_ne_one⟩)
    (fun x hx y hy => hfree x (Finset.mem_range.1 hx) y (Finset.mem_range.1 hy))
  rw [← collection_leaves node n] at hkraft ⊢
  exact h.cost_depth_le (by omega) hd _ hkraft

/-! ## The symbols of the leaves -/

/-- The symbol of leaf `i`. -/
def leafSym (node : Memory Node) (i : Nat) : Byte := (node.read i).sym

/-- Leaves have distinct symbols (R44). -/
theorem leafSym_injOn {node : Memory Node} {n : Nat} (h : ValidTree node n) {i j : Nat} (hi : i < n) (hj : j < n)
    (heq : leafSym node i = leafSym node j) : i = j := by
  obtain ⟨-, hasc, -⟩ := h
  have hval := congrArg BitVec.toNat heq
  obtain hlt | heq | hgt := Nat.lt_trichotomy i j
  · exact absurd hval (hasc j hj i hlt).ne
  · exact heq
  · exact absurd hval (hasc i hi j hgt).ne'

section
variable {freq : Memory Word} {n : Nat} {t : State} (h : BuiltFrom freq n t)
include h

/-- Leaf `i` holds the `i`-th present symbol and its count (R152). -/
theorem BuiltFrom.leaf {i : Nat} (hi : i < n) :
    (leafSym t.node i).toNat = (presentSymbols freq)[i]'(h.symbols ▸ hi) ∧
      weight t.node i = (freq.read (leafSym t.node i).toNat).toNat := by
  have hi' : i < (presentSymbols freq).length := h.symbols ▸ hi
  have hread : t.node.read i =
      .leaf (freq.read (presentSymbols freq)[i]) (BitVec.ofNat 8 (presentSymbols freq)[i]) := by
    rw [h.leaves i hi, leafOf, List.getD_eq_getElem]
  have hsym : (leafSym t.node i).toNat = (presentSymbols freq)[i] := by
    rw [leafSym, hread]
    exact Nat.mod_eq_of_lt (mem_presentSymbols.1 (List.getElem_mem _)).1
  exact ⟨hsym, by rw [hsym, weight, hread, Node.freq]⟩

/-- The symbols of the leaves are the present ones. -/
theorem BuiltFrom.perm_leafSyms {syms : List Byte} (hnodup : syms.Nodup)
    (hmem : ∀ y : Byte, y ∈ syms ↔ freq.read y.toNat ≠ 0#32) :
    syms.Perm ((List.range n).map (leafSym t.node)) := by
  refine (List.perm_ext_iff_of_nodup hnodup (List.nodup_range.map_on fun i hi j hj e =>
    leafSym_injOn h.tree.valid (List.mem_range.1 hi) (List.mem_range.1 hj) e)).2 fun y => ?_
  have hpresent : y ∈ syms ↔ y.toNat ∈ presentSymbols freq := by
    rw [hmem, mem_presentSymbols, and_iff_right y.isLt]
  rw [hpresent, List.mem_iff_getElem, List.mem_map]
  constructor
  · rintro ⟨i, hi, e⟩
    rw [← h.symbols] at hi
    exact ⟨i, List.mem_range.2 hi, BitVec.eq_of_toNat_eq ((h.leaf hi).1.trans e)⟩
  · rintro ⟨i, hi, rfl⟩
    exact ⟨i, _, (h.leaf (List.mem_range.1 hi)).1.symm⟩

/-- The weighted length of a code of the symbols is its cost on the leaves. -/
theorem BuiltFrom.sum_eq_cost {syms : List Byte} (hnodup : syms.Nodup)
    (hmem : ∀ y : Byte, y ∈ syms ↔ freq.read y.toNat ≠ 0#32) (code : Byte → BitString) :
    (syms.map (fun y => (freq.read y.toNat).toNat * (code y).length)).sum =
      cost (weight t.node) (fun i => (code (leafSym t.node i)).length) (Finset.range n) := by
  rw [((h.perm_leafSyms hnodup hmem).map _).sum_eq, List.map_map, ← List.sum_toFinset _ List.nodup_range,
    List.toFinset_range]
  exact Finset.sum_congr rfl fun i hi => by rw [Function.comp_apply, (h.leaf (Finset.mem_range.1 hi)).2]

/-- A path from the root to a leaf is as long as the leaf is deep. -/
theorem BuiltFrom.length_path {d : Nat → Nat} (hd : IsDepth t.node n n d) {i : Nat} (hi : i < n) {p : BitString}
    (hp : LeadsTo t.node t.root p (leafSym t.node i)) : p.length = d i := by
  obtain ⟨x, f, hf, hx⟩ := hp
  have hroot := h.root
  have hpos := h.pos
  obtain ⟨hlt, hdepth⟩ := hd.of_follow h.tree (by omega) hf
  have hxn : x.toNat < n := by
    by_contra hge
    obtain ⟨hinternal, -⟩ := h.tree.internalOk hlt (Nat.le_of_not_lt hge)
    rw [hx] at hinternal
    cases hinternal
  have hxi : x.toNat = i := leafSym_injOn h.tree.valid hxn hi (by rw [leafSym, hx, Node.sym])
  rw [← hxi, hdepth, hroot, hd.root, Nat.zero_add]

end

/-- Settles O36: the code costs at least the depths of the leaves, and these are the lengths of the paths. -/
theorem buildIsOptimal : Obligations.BuildIsOptimal := by
  unfold Obligations.BuildIsOptimal
  intro s t syms path code hwf hnodup hmem htwo hsum hexec hpath hfree
  obtain ⟨-, hfreq, -⟩ := (State.memoryWf_iff s).1 hwf
  rw [← totalFreq_eq_sum hfreq] at hsum
  obtain ⟨y, hy⟩ := List.exists_mem_of_length_pos (Nat.lt_of_succ_lt htwo)
  have hne : presentSymbols s.freq ≠ [] := List.ne_nil_of_mem (mem_presentSymbols.2 ⟨y.isLt, (hmem y).1 hy⟩)
  have hbuilt := builtFrom_of_exec hwf hne hsum hexec
  generalize (presentSymbols s.freq).length = n at hbuilt
  have hperm := hbuilt.perm_leafSyms hnodup hmem
  have hleaf : ∀ i < n, leafSym t.node i ∈ syms := fun i hi =>
    hperm.mem_iff.2 (List.mem_map_of_mem (List.mem_range.2 hi))
  obtain ⟨d, hd⟩ := hbuilt.tree.exists_isDepth hbuilt.pos
  rw [hbuilt.sum_eq_cost hnodup hmem, hbuilt.sum_eq_cost hnodup hmem, cost_congr (len' := d)]
  · apply hbuilt.tree.cost_depth_le_code _ hd
    · exact fun i hi j hj hij => hfree _ (hleaf i hi) _ (hleaf j hj) fun e =>
        hij (leafSym_injOn hbuilt.tree.valid hi hj e)
    · rwa [hperm.length_eq, List.length_map, List.length_range] at htwo
  · exact fun i hi => hbuilt.length_path hd (Finset.mem_range.1 hi) (hpath _ (hleaf i (Finset.mem_range.1 hi)))

end Sys2Proof.Machine
end

section
/-! PROOFS. The paths of a valid tree (spec 10_state.md R44; 42_code_table.md R171): ids fall along a path, and a
node, and so a symbol, is reached from the root by one path only. -/

namespace Sys2Proof.Machine

/-! ## Paths from one node -/

section
variable {node : Memory Node} {x : NodeId}

/-- Only the empty path starts at a leaf. -/
theorem leadsTo_leaf_iff {f : Word} {sym : Byte} (hx : node.read x.toNat = .leaf f sym) {p : BitString} {y : Byte} :
    LeadsTo node x p y ↔ p = [] ∧ sym = y := by
  cases p with
  | nil => simp [LeadsTo, follow, hx]
  | cons b p => simp [LeadsTo, follow, hx]

/-- A path to a leaf goes from an internal node to one of its children. -/
theorem leadsTo_internal_iff {f : Word} {l r : NodeId} (hx : node.read x.toNat = .internal f l r) {p : BitString}
    {y : Byte} : LeadsTo node x p y ↔ ∃ b q, p = b :: q ∧ LeadsTo node (if b then r else l) q y := by
  cases p with
  | nil => simp [LeadsTo, follow, hx]
  | cons b p => simp [LeadsTo, follow, hx]

/-- The symbol of a root that is a leaf has the code "0" (R172). -/
theorem isCode_leafRoot_iff {f : Word} {sym : Byte} (hx : node.read x.toNat = .leaf f sym) {y : Byte} {p : BitString} :
    IsCode node x y p ↔ p = [false] ∧ sym = y := by
  simp [IsCode, hx, Node.isLeaf, Node.sym]

theorem isCode_internalRoot_iff {f : Word} {l r : NodeId} (hx : node.read x.toNat = .internal f l r) {y : Byte}
    {p : BitString} : IsCode node x y p ↔ LeadsTo node x p y := by
  simp [IsCode, hx, Node.isLeaf]

/-- The last edge of a path. -/
theorem follow_concat_iff {p : BitString} {b : Bool} {y : NodeId} :
    follow node x (p ++ [b]) = some y ↔
      ∃ w f l r, follow node x p = some w ∧ node.read w.toNat = .internal f l r ∧ (if b then r else l) = y := by
  rw [follow_append, Option.bind_eq_some_iff]
  refine exists_congr fun w => ⟨fun ⟨hw, hy⟩ => ?_, fun ⟨f, l, r, hw, hread, hy⟩ => ⟨hw, ?_⟩⟩
  · obtain ⟨f, l, r, hread, hchild⟩ := follow_cons hy
    exact ⟨f, l, r, hw, hread, Option.some.inj hchild⟩
  · simp [follow, hread, hy]

/-- A path to a leaf through a node goes on from that node. -/
theorem leadsTo_append {p q : BitString} {z : NodeId} (hz : follow node x p = some z) {y : Byte} :
    LeadsTo node x (p ++ q) y ↔ LeadsTo node z q y := by
  simp [LeadsTo, follow_append, hz]

end

/-! ## Ids along a path -/

/-- `n` leaves and the root's id make a valid tree (R32, R44). -/
structure IsTree (node : Memory Node) (root : NodeId) (n : Nat) : Prop where
  pos : 1 ≤ n
  fits : n ≤ 256
  root_eq : root.toNat = 2 * n - 2
  valid : ValidTree node n

theorem TreeOk.isTree {s : State} (h : TreeOk s) (hcount : s.nodeCount ≠ 0#10) :
    IsTree s.node s.root (leafCount s) := by
  obtain ⟨hpos, hfits, -, hroot, hvalid⟩ := h.2 hcount
  exact ⟨hpos, hfits, hroot, hvalid⟩

section
variable {node : Memory Node} {root : NodeId} {n : Nat} (h : IsTree node root n)
include h

theorem IsTree.internalOk {i : Nat} (hi : i < 2 * n - 1) (hni : n ≤ i) : InternalOk node i := by
  obtain ⟨-, -, hinternal, -⟩ := h.valid
  exact hinternal i hi hni

theorem IsTree.lt_of_leaf {x : NodeId} (hx : x.toNat < 2 * n - 1) {f : Word} {sym : Byte}
    (hread : node.read x.toNat = .leaf f sym) : x.toNat < n := by
  by_contra hge
  obtain ⟨hinternal, -⟩ := h.internalOk hx (Nat.le_of_not_lt hge)
  rw [hread] at hinternal
  cases hinternal

section
variable {x l r : NodeId} {f : Word} (hread : node.read x.toNat = .internal f l r)
include hread

theorem IsTree.le_of_internal : n ≤ x.toNat := by
  by_contra hlt
  obtain ⟨hleaf, -⟩ := h.valid
  have := hleaf x.toNat (Nat.lt_of_not_le hlt)
  rw [hread] at this
  cases this

variable (hx : x.toNat < 2 * n - 1)
include hx

theorem IsTree.child_lt (b : Bool) : (if b then r else l).toNat < x.toNat := by
  obtain ⟨-, hl, hr, -⟩ := h.internalOk hx (h.le_of_internal hread)
  rw [hread] at hl hr
  cases b
  · exact hl
  · exact hr

theorem IsTree.child_injective {b c : Bool} (heq : (if c then r else l) = if b then r else l) : b = c := by
  obtain ⟨-, -, -, hne, -⟩ := h.internalOk hx (h.le_of_internal hread)
  rw [hread, Node.left, Node.right] at hne
  cases b <;> cases c <;> simp [hne, hne.symm] at heq ⊢

end

/-- Each edge of a path goes to a smaller id. -/
theorem IsTree.follow_add_length_le {x y : NodeId} {p : BitString} (hx : x.toNat < 2 * n - 1)
    (hp : follow node x p = some y) : y.toNat + p.length ≤ x.toNat := by
  induction p generalizing x with
  | nil =>
    cases hp
    exact Nat.le_refl _
  | cons b p ih =>
    obtain ⟨f, l, r, hread, hp⟩ := follow_cons hp
    have hlt := h.child_lt hread hx b
    have hle := ih (hlt.trans hx) hp
    rw [List.length_cons]
    omega

theorem IsTree.root_lt : root.toNat < 2 * n - 1 := by
  have := h.root_eq
  have := h.pos
  omega

theorem IsTree.lt_of_follow {y : NodeId} {p : BitString} (hp : follow node root p = some y) : y.toNat < 2 * n - 1 := by
  have := h.follow_add_length_le h.root_lt hp
  have := h.root_lt
  omega

/-- A path to an internal node has at most `n - 2` edges: the internal nodes are the ids from `n` on. -/
theorem IsTree.length_add_two_le {x l r : NodeId} {f : Word} {p : BitString} (hp : follow node root p = some x)
    (hread : node.read x.toNat = .internal f l r) : p.length + 2 ≤ n := by
  have := h.follow_add_length_le h.root_lt hp
  have := h.le_of_internal hread
  have := h.root_eq
  have := h.pos
  omega

/-- A code of a tree with an internal node has at most `n - 1` bits (R174). -/
theorem IsTree.length_lt_of_leadsTo {p : BitString} {y : Byte} (hne : p ≠ []) (hp : LeadsTo node root p y) :
    p.length + 1 ≤ n := by
  obtain ⟨q, b, w, f, l, r, g, rfl, hq, hread, -⟩ := leadsTo_lastEdge hne hp
  have := h.length_add_two_le hq hread
  rw [List.length_append, List.length_singleton]
  omega

/-! ## One path only -/

/-- Node `i` is a child of the internal node `j`. -/
def IsParent (node : Memory Node) (n j i : Nat) : Prop :=
  j < 2 * n - 1 ∧ n ≤ j ∧ ((node.read j).left.toNat = i ∨ (node.read j).right.toNat = i)

/-- A node has one parent (R44). -/
theorem IsTree.parent_unique {i j k : Nat} (hi : i < 2 * n - 2) (hj : IsParent node n j i)
    (hk : IsParent node n k i) : j = k := by
  obtain ⟨-, -, -, hparent⟩ := h.valid
  obtain ⟨u, hu⟩ := List.length_eq_one_iff.1 (hparent i hi)
  have honly {m : Nat} (hm : IsParent node n m i) : m = u := by
    rw [← List.mem_singleton, ← hu]
    simpa [IsParent] using hm
  rw [honly hj, honly hk]

theorem IsTree.isParent_child {x l r : NodeId} {f : Word} (hx : x.toNat < 2 * n - 1)
    (hread : node.read x.toNat = .internal f l r) (b : Bool) :
    IsParent node n x.toNat (if b then r else l).toNat := by
  refine ⟨hx, h.le_of_internal hread, ?_⟩
  rw [hread]
  cases b
  · exact .inl rfl
  · exact .inr rfl

/-- No path leads back to the root. -/
theorem IsTree.eq_nil_of_follow_root {p : BitString} (hp : follow node root p = some root) : p = [] := by
  have := h.follow_add_length_le h.root_lt hp
  exact List.eq_nil_of_length_eq_zero (by omega)

/-- One path leads to a node (R171). -/
theorem IsTree.path_unique {p q : BitString} {y : NodeId} (hp : follow node root p = some y)
    (hq : follow node root q = some y) : p = q := by
  induction p using List.reverseRecOn generalizing q y with
  | nil =>
    cases hp
    exact (h.eq_nil_of_follow_root hq).symm
  | append_singleton p b ih =>
    induction q using List.reverseRecOn with
    | nil =>
      cases hq
      exact h.eq_nil_of_follow_root hp
    | append_singleton q c _ =>
      obtain ⟨v, f, l, r, hv, hreadv, rfl⟩ := follow_concat_iff.1 hp
      obtain ⟨w, f', l', r', hw, hreadw, hchild⟩ := follow_concat_iff.1 hq
      have hvlt := h.lt_of_follow hv
      have hlt := h.child_lt hreadv hvlt b
      have hwparent := h.isParent_child (h.lt_of_follow hw) hreadw c
      rw [hchild] at hwparent
      obtain rfl : v = w :=
        BitVec.eq_of_toNat_eq (h.parent_unique (by omega) (h.isParent_child hvlt hreadv b) hwparent)
      obtain ⟨-, rfl, rfl⟩ := Node.internal.inj (hreadv.symm.trans hreadw)
      rw [ih hv hw, h.child_injective hreadv hvlt hchild]

/-- A symbol has one code (R171, R172). -/
theorem IsTree.isCode_unique {p q : BitString} {y : Byte} (hp : IsCode node root y p) (hq : IsCode node root y q) :
    p = q := by
  cases hroot : node.read root.toNat with
  | leaf f sym =>
    rw [isCode_leafRoot_iff hroot] at hp hq
    exact hp.1.trans hq.1.symm
  | internal f l r =>
    rw [isCode_internalRoot_iff hroot] at hp hq
    obtain ⟨v, f, hv, hreadv⟩ := hp
    obtain ⟨w, g, hw, hreadw⟩ := hq
    have hvn := h.lt_of_leaf (h.lt_of_follow hv) hreadv
    have hwn := h.lt_of_leaf (h.lt_of_follow hw) hreadw
    obtain rfl : v = w := BitVec.eq_of_toNat_eq
      (leafSym_injOn h.valid hvn hwn (by rw [leafSym, leafSym, hreadv, hreadw, Node.sym, Node.sym]))
    exact h.path_unique hv hw

end

end Sys2Proof.Machine
end

section
/-! PROOFS. GENCODES (spec 42_code_table.md R170 to R174): the walk records the path of each symbol, and
among the paths of a valid tree none begins another and their lengths meet Kraft's equality. -/

namespace Sys2Proof.Machine

/-! ## What the walk records -/

/-- The entry of a symbol whose code is `p` (R170). -/
def CodeEntry.ofPath (p : BitString) : CodeEntry := ⟨true, BitVec.ofNat 8 p.length, p⟩

theorem read_recordCode_same {code : Memory CodeEntry} (hlen : code.length = 256) (y : Byte) (p : BitString) :
    (recordCode y p code).read y.toNat = .ofPath p :=
  Memory.read_write_same _ (hlen ▸ y.isLt)

theorem read_recordCode_other {y z : Byte} (hne : y ≠ z) (p : BitString) (code : Memory CodeEntry) :
    (recordCode y p code).read z.toNat = code.read z.toNat :=
  Memory.read_write_other _ _ (BitVec.toNat_ne.1 hne)

/-- The walk below `x` records for a symbol a path to a leaf of it, or keeps its entry if no leaf of it is within
`levels`. -/
theorem read_walk (node : Memory Node) (levels : Nat) (x : NodeId) (p : BitString) {code : Memory CodeEntry}
    (hlen : code.length = 256) (y : Byte) :
    (∃ q, LeadsTo node x q y ∧ (walk node levels x p code).read y.toNat = .ofPath (p ++ q)) ∨
      (∀ q, LeadsTo node x q y → levels ≤ q.length) ∧
        (walk node levels x p code).read y.toNat = code.read y.toNat := by
  induction levels generalizing x p code with
  | zero => exact .inr ⟨fun _ _ => Nat.zero_le _, rfl⟩
  | succ levels ih =>
    cases hx : node.read x.toNat with
    | leaf f sym =>
      rw [walk_succ_leaf hx]
      by_cases hy : sym = y
      · subst hy
        refine .inl ⟨[], (leadsTo_leaf_iff hx).2 ⟨rfl, rfl⟩, ?_⟩
        rw [read_recordCode_same hlen, List.append_nil]
      · exact .inr ⟨fun q hq => absurd ((leadsTo_leaf_iff hx).1 hq).2 hy, read_recordCode_other hy p code⟩
    | internal f l r =>
      rw [walk_succ_internal hx]
      have hthrough {b : Bool} {q : BitString} (hq : LeadsTo node (if b then r else l) q y) :
          LeadsTo node x (b :: q) y := (leadsTo_internal_iff hx).2 ⟨b, q, rfl, hq⟩
      obtain ⟨q, hq, hread⟩ | ⟨hright, hkeep⟩ :=
        ih r (p ++ [true]) ((length_walk node levels l (p ++ [false]) code).trans hlen)
      · exact .inl ⟨true :: q, hthrough hq, by simpa using hread⟩
      obtain ⟨q, hq, hread⟩ | ⟨hleft, hkeep'⟩ := ih l (p ++ [false]) hlen
      · exact .inl ⟨false :: q, hthrough hq, by simpa using hkeep.trans hread⟩
      refine .inr ⟨fun q hq => ?_, hkeep.trans hkeep'⟩
      obtain ⟨b, q, rfl, hbelow⟩ := (leadsTo_internal_iff hx).1 hq
      cases b
      · exact Nat.succ_le_succ (hleft q hbelow)
      · exact Nat.succ_le_succ (hright q hbelow)

/-- GENCODES records for a symbol a code of it, or leaves it without one if the tree has none (R170). -/
theorem IsTree.read_generateCodes {node : Memory Node} {root : NodeId} {n : Nat} (h : IsTree node root n)
    {code : Memory CodeEntry} (hlen : code.length = 256) (y : Byte) :
    (∃ p, IsCode node root y p ∧ (generateCodes node root code).read y.toNat = .ofPath p) ∨
      (∀ p, ¬IsCode node root y p) ∧ ((generateCodes node root code).read y.toNat).valid = false := by
  have hclear : (clearedCodes code).length = 256 := (length_clearedCodes code).trans hlen
  have hinvalid : ((clearedCodes code).read y.toNat).valid = false := by rw [read_clearedCodes]
  cases hroot : node.read root.toNat with
  | leaf f sym =>
    simp only [isCode_leafRoot_iff hroot, generateCodes, hroot]
    by_cases hy : sym = y
    · subst hy
      exact .inl ⟨[false], ⟨rfl, rfl⟩, read_recordCode_same hclear _ _⟩
    · exact .inr ⟨fun p hp => hy hp.2, by rw [read_recordCode_other hy, hinvalid]⟩
  | internal f l r =>
    simp only [isCode_internalRoot_iff hroot, generateCodes, hroot]
    obtain ⟨p, hp, hread⟩ | ⟨hdeep, hkeep⟩ := read_walk node nodeMax root [] hclear y
    · exact .inl ⟨p, hp, hread⟩
    · refine .inr ⟨fun p hp => ?_, by rw [hkeep, hinvalid]⟩
      have hmax : 511 ≤ p.length := hdeep p hp
      obtain ⟨z, g, hz, -⟩ := hp
      have := h.follow_add_length_le h.root_lt hz
      have := h.root_eq
      have := h.fits
      omega

/-! ## The recorded table -/

/-- The table holds the code of every symbol that has one, and marks the others as free (R170, R172). -/
def RecordsCodes (node : Memory Node) (root : NodeId) (m : Memory CodeEntry) : Prop :=
  ∀ y : Byte, ((m.read y.toNat).valid = true ↔ ∃ p, IsCode node root y p) ∧
    ∀ p, IsCode node root y p → m.read y.toNat = .ofPath p

theorem IsTree.generateCodes_recordsCodes {node : Memory Node} {root : NodeId} {n : Nat} (h : IsTree node root n)
    {code : Memory CodeEntry} (hlen : code.length = 256) :
    RecordsCodes node root (generateCodes node root code) := by
  intro y
  obtain ⟨p, hp, hread⟩ | ⟨hnone, hfree⟩ := h.read_generateCodes hlen y
  · rw [hread]
    exact ⟨iff_of_true rfl ⟨p, hp⟩, fun q hq => by rw [h.isCode_unique hp hq]⟩
  · exact ⟨by simp [hfree, hnone], fun p hp => absurd hp (hnone p)⟩

theorem RecordsCodes.exists_isCode {node : Memory Node} {root : NodeId} {m : Memory CodeEntry}
    (h : RecordsCodes node root m) {y : Byte} (hy : (m.read y.toNat).valid = true) :
    ∃ p, IsCode node root y p ∧ m.read y.toNat = .ofPath p := by
  obtain ⟨p, hp⟩ := (h y).1.1 hy
  exact ⟨p, hp, (h y).2 p hp⟩

/-! ## GENCODES -/

theorem exec_gencodes_noTree {s : State} (hcount : s.nodeCount = 0#10) :
    exec .gencodes s = .next (errorEntry .noTree 0#32 0#32 s) := by
  rw [exec, execGencodes, runGencodes, if_pos hcount, finish]

theorem exec_gencodes_tree {s : State} (hcount : s.nodeCount ≠ 0#10) :
    exec .gencodes s = .next { s with
      busy := false, done := true, codesValid := true, code := generateCodes s.node s.root s.code } := by
  rw [exec, execGencodes, runGencodes, if_neg hcount]
  rfl

/-- What GENCODES on a valid tree leaves in code memory. -/
theorem recordsCodes_of_exec {s t : State} (hwf : s.memoryWf = true) (hcount : s.nodeCount ≠ 0#10) (htree : TreeOk s)
    (hexec : exec .gencodes s = .next t) : RecordsCodes s.node s.root t.code := by
  obtain ⟨-, -, -, hcode, -⟩ := (State.memoryWf_iff s).1 hwf
  rw [exec_gencodes_tree hcount] at hexec
  cases hexec
  exact (htree.isTree hcount).generateCodes_recordsCodes hcode

/-- Settles O37: the check of NODE_COUNT comes before any write. -/
theorem gencodesWithoutTreeFails : Obligations.GencodesWithoutTreeFails := by
  unfold Obligations.GencodesWithoutTreeFails
  intro s hcount
  rw [exec_gencodes_noTree hcount]
  rfl

/-- Settles O38: the walk records a path of each leaf, and a leaf has one path only. -/
theorem gencodesRecordsPaths : Obligations.GencodesRecordsPaths := by
  unfold Obligations.GencodesRecordsPaths
  intro s hwf hcount htree
  obtain ⟨-, -, -, hcode, -⟩ := (State.memoryWf_iff s).1 hwf
  exact ⟨_, exec_gencodes_tree hcount, (length_generateCodes _ _ _).trans hcode,
    recordsCodes_of_exec hwf hcount htree (exec_gencodes_tree hcount)⟩

/-! ## No code begins another -/

/-- A path to a leaf goes on to no other leaf. -/
theorem leadsTo_eq_of_prefix {node : Memory Node} {x : NodeId} {p q : BitString} {y z : Byte} (hp : LeadsTo node x p y)
    (hq : LeadsTo node x q z) (hpre : p <+: q) : y = z := by
  obtain ⟨r, rfl⟩ := hpre
  obtain ⟨w, f, hw, hread⟩ := hp
  exact ((leadsTo_leaf_iff hread).1 ((leadsTo_append hw).1 hq)).2

theorem isCode_eq_of_prefix {node : Memory Node} {root : NodeId} {p q : BitString} {y z : Byte}
    (hp : IsCode node root y p) (hq : IsCode node root z q) (hpre : p <+: q) : y = z := by
  cases hroot : node.read root.toNat with
  | leaf f sym =>
    rw [isCode_leafRoot_iff hroot] at hp hq
    exact hp.2.symm.trans hq.2
  | internal f l r =>
    rw [isCode_internalRoot_iff hroot] at hp hq
    exact leadsTo_eq_of_prefix hp hq hpre

/-- Settles O39: a code that begins another would lead through a leaf. -/
theorem codesArePrefixFree : Obligations.CodesArePrefixFree := by
  unfold Obligations.CodesArePrefixFree
  intro s t hwf hcount htree hexec y z hne hy hz hpre
  have hrecords := recordsCodes_of_exec hwf hcount htree hexec
  obtain ⟨p, hp, hcodey⟩ := hrecords.exists_isCode hy
  obtain ⟨q, hq, hcodez⟩ := hrecords.exists_isCode hz
  rw [hcodey, hcodez] at hpre
  exact hne (isCode_eq_of_prefix hp hq hpre)

/-! ## Kraft's equality -/

/-- The symbols whose codes begin with `p`. -/
def codedUnder (m : Memory CodeEntry) (p : BitString) : Finset Nat :=
  (Finset.range 256).filter (fun y => (m.read y).valid = true ∧ p <+: (m.read y).bits)

/-- Of the `2 ^ 255` strings of 255 bits, how many begin with the codes of these symbols. -/
def kraftSum (m : Memory CodeEntry) (P : Finset Nat) : Nat := ∑ y ∈ P, 2 ^ (255 - (m.read y).len.toNat)

theorem disjoint_codedUnder (m : Memory CodeEntry) (p : BitString) :
    Disjoint (codedUnder m (p ++ [false])) (codedUnder m (p ++ [true])) := by
  refine Finset.disjoint_left.2 fun y hleft hright => ?_
  obtain ⟨-, -, hpre⟩ := Finset.mem_filter.1 hleft
  obtain ⟨-, -, hpre'⟩ := Finset.mem_filter.1 hright
  have := (List.prefix_of_prefix_length_le hpre hpre' (by simp)).eq_of_length (by simp)
  simp at this

section
variable {node : Memory Node} {root : NodeId} {n : Nat} (h : IsTree node root n) (hn : 2 ≤ n)
include h hn

theorem IsTree.exists_internalRoot : ∃ f l r, node.read root.toNat = .internal f l r := by
  cases hroot : node.read root.toNat with
  | leaf f sym =>
    have := h.lt_of_leaf h.root_lt hroot
    have := h.root_eq
    omega
  | internal f l r => exact ⟨f, l, r, rfl⟩

theorem IsTree.isCode_iff_leadsTo {y : Byte} {p : BitString} : IsCode node root y p ↔ LeadsTo node root p y := by
  obtain ⟨f, l, r, hroot⟩ := h.exists_internalRoot hn
  exact isCode_internalRoot_iff hroot

/-- A code has 1 to `n - 1` bits (R174). -/
theorem IsTree.length_code {y : Byte} {p : BitString} (hp : LeadsTo node root p y) :
    1 ≤ p.length ∧ p.length ≤ n - 1 := by
  obtain ⟨f, l, r, hroot⟩ := h.exists_internalRoot hn
  obtain ⟨b, q, rfl, -⟩ := (leadsTo_internal_iff hroot).1 hp
  have := h.length_lt_of_leadsTo (List.cons_ne_nil b q) hp
  rw [List.length_cons] at this ⊢
  omega

theorem IsTree.toNat_len {y : Byte} {p : BitString} (hp : LeadsTo node root p y) :
    (CodeEntry.ofPath p).len.toNat = p.length := by
  obtain ⟨-, hle⟩ := h.length_code hn hp
  have := h.fits
  exact Nat.mod_eq_of_lt (show p.length < 256 by omega)

variable {m : Memory CodeEntry} (hm : RecordsCodes node root m)
include hm

/-- The entry of a coded symbol is that of a path to its leaf. -/
theorem IsTree.exists_path {y : Nat} (hy : y < 256) (hvalid : (m.read y).valid = true) :
    ∃ (b : Byte) (p : BitString), b.toNat = y ∧ LeadsTo node root p b ∧ m.read y = .ofPath p := by
  have hb : (BitVec.ofNat 8 y).toNat = y := Nat.mod_eq_of_lt hy
  rw [← hb] at hvalid ⊢
  obtain ⟨p, hp, hread⟩ := hm.exists_isCode hvalid
  exact ⟨_, p, rfl, (h.isCode_iff_leadsTo hn).1 hp, hread⟩

theorem IsTree.read_of_leadsTo {y : Byte} {p : BitString} (hp : LeadsTo node root p y) :
    m.read y.toNat = .ofPath p := (hm y).2 p ((h.isCode_iff_leadsTo hn).2 hp)

/-- The codes that begin with the path to a node are those of the leaves below it. -/
theorem IsTree.mem_codedUnder_iff {p : BitString} {x : NodeId} (hx : follow node root p = some x) {y : Nat} :
    y ∈ codedUnder m p ↔ ∃ (b : Byte) (q : BitString), b.toNat = y ∧ LeadsTo node x q b := by
  rw [codedUnder, Finset.mem_filter, Finset.mem_range]
  constructor
  · rintro ⟨hy, hvalid, hpre⟩
    obtain ⟨b, c, hb, hc, hread⟩ := h.exists_path hn hm hy hvalid
    rw [hread] at hpre
    obtain ⟨q, rfl⟩ := hpre
    exact ⟨b, q, hb, (leadsTo_append hx).1 hc⟩
  · rintro ⟨b, q, rfl, hq⟩
    rw [h.read_of_leadsTo hn hm ((leadsTo_append hx).2 hq)]
    exact ⟨b.isLt, rfl, List.prefix_append p q⟩

theorem IsTree.codedUnder_leaf {p : BitString} {x : NodeId} {f : Word} {sym : Byte}
    (hx : follow node root p = some x) (hread : node.read x.toNat = .leaf f sym) :
    codedUnder m p = {sym.toNat} := by
  ext y
  simp [h.mem_codedUnder_iff hn hm hx, leadsTo_leaf_iff hread, eq_comm]

/-- Below an internal node the codes go on with 0 or 1. -/
theorem IsTree.codedUnder_internal {p : BitString} {x l r : NodeId} {f : Word}
    (hx : follow node root p = some x) (hread : node.read x.toNat = .internal f l r) :
    codedUnder m p = codedUnder m (p ++ [false]) ∪ codedUnder m (p ++ [true]) := by
  have hchild (b : Bool) : follow node root (p ++ [b]) = some (if b then r else l) :=
    follow_concat_iff.2 ⟨x, f, l, r, hx, hread, rfl⟩
  ext y
  rw [Finset.mem_union, h.mem_codedUnder_iff hn hm hx, h.mem_codedUnder_iff hn hm (hchild false),
    h.mem_codedUnder_iff hn hm (hchild true)]
  simp only [leadsTo_internal_iff hread]
  constructor
  · rintro ⟨b, -, hb, d, q, rfl, hq⟩
    cases d
    · exact .inl ⟨b, q, hb, hq⟩
    · exact .inr ⟨b, q, hb, hq⟩
  · rintro (⟨b, q, hb, hq⟩ | ⟨b, q, hb, hq⟩)
    · exact ⟨b, _, hb, false, q, rfl, hq⟩
    · exact ⟨b, _, hb, true, q, rfl, hq⟩

/-- The codes below a node begin as many strings as the path to it does: its two children share them in halves. -/
theorem IsTree.kraftSum_codedUnder {p : BitString} {x : NodeId} (hx : follow node root p = some x) :
    kraftSum m (codedUnder m p) = 2 ^ (255 - p.length) := by
  induction hid : x.toNat using Nat.strong_induction_on generalizing p x with
  | _ i ih =>
    cases hread : node.read x.toNat with
    | leaf f sym =>
      have hp : LeadsTo node root p sym := ⟨x, f, hx, hread⟩
      rw [h.codedUnder_leaf hn hm hx hread, kraftSum, Finset.sum_singleton, h.read_of_leadsTo hn hm hp,
        h.toNat_len hn hp]
    | internal f l r =>
      have hchild (b : Bool) : kraftSum m (codedUnder m (p ++ [b])) = 2 ^ (254 - p.length) := by
        have hb := follow_concat_iff (b := b).2 ⟨x, f, l, r, hx, hread, rfl⟩
        rw [ih _ (hid ▸ h.child_lt hread (h.lt_of_follow hx) b) hb rfl, List.length_append,
          List.length_singleton, Nat.add_comm, Nat.sub_add_eq]
      have hlen := h.length_add_two_le hx hread
      have hfits := h.fits
      calc kraftSum m (codedUnder m p)
          = kraftSum m (codedUnder m (p ++ [false])) + kraftSum m (codedUnder m (p ++ [true])) := by
            rw [h.codedUnder_internal hn hm hx hread]
            exact Finset.sum_union (disjoint_codedUnder m p)
        _ = 2 ^ (254 - p.length) + 2 ^ (254 - p.length) := by rw [hchild, hchild]
        _ = 2 ^ (255 - p.length) := by
            rw [← mul_two, ← pow_succ]
            congr 1
            omega

end

/-- The sum over the coded symbols as a list is that over the codes that begin with the empty string. -/
theorem sum_coded_eq_kraftSum (m : Memory CodeEntry) :
    (((List.range 256).filter (fun y => (m.read y).valid)).map (fun y => 2 ^ (255 - (m.read y).len.toNat))).sum =
      kraftSum m (codedUnder m []) := by
  rw [← List.sum_toFinset _ (List.nodup_range.filter _), List.toFinset_filter, List.toFinset_range, kraftSum,
    codedUnder]
  simp

/-- Settles O40: every internal node shares out its strings between two children. -/
theorem codeLengthsMeetKraftEquality : Obligations.CodeLengthsMeetKraftEquality := by
  unfold Obligations.CodeLengthsMeetKraftEquality
  intro s t hwf hcount htree hn hexec
  have h := htree.isTree hcount
  have hrecords := recordsCodes_of_exec hwf hcount htree hexec
  refine ⟨fun y hy hvalid => ?_, ?_⟩
  · obtain ⟨b, p, -, hp, hread⟩ := h.exists_path hn hrecords hy hvalid
    obtain ⟨hpos, hle⟩ := h.length_code hn hp
    rw [hread, h.toNat_len hn hp]
    exact ⟨hpos, hle, rfl⟩
  · rw [sum_coded_eq_kraftSum]
    exact h.kraftSum_codedUnder hn hrecords rfl

end Sys2Proof.Machine
end

section
/-! PROOFS. ENCODE (spec 43_encoder.md R190 to R194): its first checks, its loop over symbols whose codes exist and fit,
and what a loop that succeeds or fails leaves in BITBUF. -/

namespace Sys2Proof.Machine

section
variable {s : State} {n : Nat}

/-! ## The first checks (R190, R234) -/

theorem exec_encode_badArgument (hn : s.cfg.symbufDepth < n) :
    exec (.encode n) s =
      .next (errorEntry .badArgument (BitVec.ofNat 32 n) (BitVec.ofNat 32 s.cfg.symbufDepth) s) := by
  rw [exec, execEncode, runEncode, if_pos hn, finish]

theorem exec_encode_noCodeTable (hn : n ≤ s.cfg.symbufDepth) (hvalid : s.codesValid = false) :
    exec (.encode n) s = .next (errorEntry .noCodeTable 0#32 0#32 s) := by
  rw [exec, execEncode, runEncode, if_neg (Nat.not_lt.2 hn), if_pos hvalid, finish]

/-- Past its checks, ENCODE writes its loop's stream and ends as the loop does. -/
theorem exec_encode_loop (hn : n ≤ s.cfg.symbufDepth) (hvalid : s.codesValid = true) {e : Encoded}
    (hloop : encodeLoop s n 0 [] = e) : exec (.encode n) s = .next (finish e.ending (writeStream e s)) := by
  rw [exec, execEncode, runEncode, if_neg (Nat.not_lt.2 hn), if_neg (by simp [hvalid]), hloop]

/-- A loop that succeeds leaves its whole stream, padded, and the stream's length (R191, R193). -/
theorem exec_encode_succeed (hn : n ≤ s.cfg.symbufDepth) (hvalid : s.codesValid = true) {stream : BitString}
    (hloop : encodeLoop s n 0 [] = ⟨stream, .succeed⟩) :
    exec (.encode n) s = .next { s with
      busy := false, done := true, bitbuf := pack stream ((stream.length + 31) / 32) s.bitbuf
      encBitLen := BitVec.ofNat 32 stream.length } :=
  exec_encode_loop hn hvalid hloop

/-- A loop that fails leaves the complete words of its stream (R192). -/
theorem exec_encode_fail (hn : n ≤ s.cfg.symbufDepth) (hvalid : s.codesValid = true) {stream : BitString}
    {e : ErrCode} {i0 i1 : Word} (hloop : encodeLoop s n 0 [] = ⟨stream, .fail e i0 i1⟩) :
    exec (.encode n) s =
      .next (errorEntry e i0 i1 (s.withBitbuf (pack stream (stream.length / 32) s.bitbuf))) :=
  exec_encode_loop hn hvalid hloop

/-! ## The loop over symbols that have codes (R190) -/

/-- The codes of symbols whose LEN is right have the lengths' sum as their length (R193). -/
theorem length_flatten_storedCodes {syms : List Byte} (h : ∀ y ∈ syms, HasCode s y) :
    (storedCodes s syms).flatten.length = (syms.map (fun y => (s.code.read y.toNat).len.toNat)).sum := by
  rw [storedCodes, List.length_flatten, List.map_map]
  exact congrArg List.sum (List.map_congr_left fun y hy => (h y hy).2.symm)

/-- The loop passes the first `n` symbols, if they have codes that fit, with their codes as its stream. -/
theorem encodeLoop_inputSymbols (h : ∀ y ∈ inputSymbols s n, HasCode s y)
    (hfits : (storedCodes s (inputSymbols s n)).flatten.length ≤ s.cfg.bitcap) (left : Nat) :
    encodeLoop s (n + left) 0 [] = encodeLoop s left n (storedCodes s (inputSymbols s n)).flatten := by
  have hcodes : ∀ k < n, HasCode s (s.symbuf.read (0 + k)) := fun k hk =>
    h _ (List.mem_map.2 ⟨k, List.mem_range.2 hk, by rw [Nat.zero_add]⟩)
  rw [← codesFrom_inputSymbols] at hfits ⊢
  simpa using encodeLoop_append s n left 0 [] hcodes (by simpa using hfits)

/-- A stream that fits BITCAP fits the words of BITBUF, the last one padded (R6, R191). -/
theorem paddedWords_le_length_bitbuf (hwf : s.memoryWf = true) {stream : BitString}
    (hfits : stream.length ≤ s.cfg.bitcap) : (stream.length + 31) / 32 ≤ s.bitbuf.length := by
  obtain ⟨-, -, -, -, -, hbitbuf⟩ := (State.memoryWf_iff s).1 hwf
  rw [Config.bitcap] at hfits
  omega

end

/-- The loop reads the configuration, the symbols and the code memory only (R194). -/
theorem encodeLoop_congr {s s' : State} (hcfg : s'.cfg = s.cfg) (hsymbuf : s'.symbuf = s.symbuf)
    (hcode : s'.code = s.code) (left i : Nat) (stream : BitString) :
    encodeLoop s' left i stream = encodeLoop s left i stream := by
  induction left generalizing i stream with
  | zero => rfl
  | succ left ih => simp only [encodeLoop, hcfg, hsymbuf, hcode, ih]

/-! ## Replacing the tree state (R194) -/

/-- The state with another FREQ, NODE memory, `NODE_COUNT` and `ROOT`. -/
def State.replaceTree (freq : Memory Word) (node : Memory Node) (count : BitVec 10) (root : NodeId)
    (s : State) : State :=
  { s with freq := freq, node := node, nodeCount := count, root := root }

section
variable (freq : Memory Word) (node : Memory Node) (count : BitVec 10) (root : NodeId) (s : State)

theorem finish_replaceTree (e : Ending) :
    finish e (s.replaceTree freq node count root) = (finish e s).replaceTree freq node count root := by
  cases e <;> rfl

theorem writeStream_replaceTree (e : Encoded) :
    writeStream e (s.replaceTree freq node count root) = (writeStream e s).replaceTree freq node count root := by
  obtain ⟨stream, ending⟩ := e
  cases ending <;> rfl

theorem runEncode_replaceTree (n : Nat) :
    runEncode n (s.replaceTree freq node count root) =
      ((runEncode n s).1.replaceTree freq node count root, (runEncode n s).2) := by
  have hloop : encodeLoop (s.replaceTree freq node count root) n 0 [] = encodeLoop s n 0 [] :=
    encodeLoop_congr (s := s) (s' := s.replaceTree freq node count root) rfl rfl rfl n 0 []
  rw [runEncode, runEncode, hloop, writeStream_replaceTree]
  by_cases hn : s.cfg.symbufDepth < n
  · rw [if_pos hn]
    exact if_pos hn
  by_cases hvalid : s.codesValid = false
  · rw [if_neg hn, if_pos hvalid]
    exact (if_neg hn).trans (if_pos hvalid)
  · rw [if_neg hn, if_neg hvalid]
    exact (if_neg hn).trans (if_neg hvalid)

theorem exec_encode_replaceTree (n : Nat) :
    exec (.encode n) (s.replaceTree freq node count root) =
      .next ((finish (runEncode n s).2 (runEncode n s).1).replaceTree freq node count root) := by
  rw [exec, execEncode, runEncode_replaceTree, finish_replaceTree]

end

/-! ## The statements -/

/-- Settles O41: the checks come in this order and before any write. -/
theorem encodeArgumentAndCodesChecked : Obligations.EncodeArgumentAndCodesChecked := by
  unfold Obligations.EncodeArgumentAndCodesChecked
  exact fun s n => ⟨exec_encode_badArgument, exec_encode_noCodeTable⟩

/-- Settles O42: the loop passes all `n` symbols, and `pack` writes its stream. -/
theorem encodeCompletes : Obligations.EncodeCompletes := by
  unfold Obligations.EncodeCompletes
  intro s n hwf hn hvalid hcodes hsum
  have hlength := length_flatten_storedCodes hcodes
  have hfits := hlength.trans_le hsum
  have hwords := paddedWords_le_length_bitbuf hwf hfits
  refine ⟨_, _, rfl, hlength, exec_encode_succeed hn hvalid (encodeLoop_inputSymbols hcodes hfits 0),
    length_pack _ _ _, fun k hk => ?_, fun k hend hk => ?_, fun w hw _ => ?_⟩
  · exact streambit_pack _ hwords (by omega)
  · rw [streambit_pack _ hwords hk, List.getD_eq_default _ _ hend]
  · rw [read_pack _ hwords, if_neg (Nat.not_lt.2 hw)]

/-- Settles O43: the loop passes the `i` symbols before and stops at symbol `i`; `pack` writes the complete words. -/
theorem encodeFailsAtFirstBadSymbol : Obligations.EncodeFailsAtFirstBadSymbol := by
  unfold Obligations.EncodeFailsAtFirstBadSymbol
  rintro s n i stream hwf hn hvalid hi hcodes rfl hfits
  have hwords := (Nat.div_le_div_right (Nat.le_add_right _ 31)).trans (paddedWords_le_length_bitbuf hwf hfits)
  have hloop := encodeLoop_inputSymbols hcodes hfits (n - i - 1 + 1)
  rw [show i + (n - i - 1 + 1) = n by omega] at hloop
  refine ⟨_, length_pack _ _ _, fun k hk => streambit_pack _ hwords hk, fun w hw _ => ?_,
    fun hnoCode => ?_, fun hcode hover => ?_⟩
  · rw [read_pack _ hwords, if_neg (Nat.not_lt.2 hw)]
  · exact exec_encode_fail hn hvalid (hloop.trans (encodeLoop_noCode s _ i _ hnoCode))
  · exact exec_encode_fail hn hvalid (hloop.trans (encodeLoop_overflow s _ i _ hcode hover))

/-- Settles O44: the run commutes with replacing the tree state, and so does its completion. -/
theorem encodeReadsNoTree : Obligations.EncodeReadsNoTree := by
  unfold Obligations.EncodeReadsNoTree
  intro s t n freq node count root hexec
  cases hexec
  exact exec_encode_replaceTree freq node count root s n

end Sys2Proof.Machine
end

section
/-! PROOFS. DECODE (spec 44_decoder.md R210 to R216): its first checks, its loop over whole codes, and what ends
the loop after them: the stream's end, an incomplete code, a full buffer, or a 1 bit with a single leaf. -/

namespace Sys2Proof.Machine

/-! ## The first checks (R210, R234) -/

section
variable {s : State} {l : Nat}

theorem exec_decode_badArgument (hl : s.cfg.bitcap < l) :
    exec (.decode l) s =
      .next (errorEntry .badArgument (BitVec.ofNat 32 l) (BitVec.ofNat 32 s.cfg.bitcap) s) := by
  rw [exec, execDecode, runDecode, if_pos hl, finish]

theorem exec_decode_noTree (hl : l ≤ s.cfg.bitcap) (hcount : s.nodeCount = 0#10) :
    exec (.decode l) s = .next (errorEntry .noTree 0#32 0#32 s) := by
  rw [exec, execDecode, runDecode, if_neg (Nat.not_lt.2 hl), if_pos hcount, finish]

/-- Past its checks, DECODE writes its loop's symbols and ends as the loop does. -/
theorem exec_decode_loop (hl : l ≤ s.cfg.bitcap) (hcount : s.nodeCount ≠ 0#10) {c : Cursor} {e : Ending}
    (hloop : decodeLoop s l 0 (startCursor s) = (c, e)) :
    exec (.decode l) s = .next (finish e (writeSymbols c e s)) := by
  rw [exec, execDecode, runDecode, if_neg (Nat.not_lt.2 hl), if_neg hcount, hloop]

/-- A loop that succeeds leaves its symbols and their number (R210). -/
theorem exec_decode_succeed (hl : l ≤ s.cfg.bitcap) (hcount : s.nodeCount ≠ 0#10) {c : Cursor}
    (hloop : decodeLoop s l 0 (startCursor s) = (c, .succeed)) :
    exec (.decode l) s = .next { s with
      busy := false, done := true, symbuf := c.symbuf, decSymCount := BitVec.ofNat 32 c.count } :=
  exec_decode_loop hl hcount hloop

/-- A loop that fails leaves the symbols emitted before (R213). -/
theorem exec_decode_fail (hl : l ≤ s.cfg.bitcap) (hcount : s.nodeCount ≠ 0#10) {c : Cursor} {e : ErrCode}
    {i0 i1 : Word} (hloop : decodeLoop s l 0 (startCursor s) = (c, .fail e i0 i1)) :
    exec (.decode l) s = .next (errorEntry e i0 i1 (s.withSymbuf c.symbuf)) :=
  exec_decode_loop hl hcount hloop

end

/-! ## A memory whose first entries are given -/

/-- The memory with the entries from 0 on replaced by those of a list. -/
def Memory.overlay {α : Type} (m : Memory α) (xs : List α) : Memory α := xs ++ m.drop xs.length

section
variable {α : Type} {m : Memory α} {xs : List α}

@[simp] theorem Memory.overlay_nil : m.overlay [] = m := rfl

theorem Memory.length_overlay (h : xs.length ≤ m.length) : (m.overlay xs).length = m.length := by
  rw [overlay, List.length_append, List.length_drop, Nat.add_sub_of_le h]

theorem Memory.write_overlay (h : xs.length < m.length) (x : α) :
    (m.overlay xs).write xs.length x = m.overlay (xs ++ [x]) := by
  rw [write, overlay, overlay, List.set_append_right _ _ (Nat.le_refl _), List.drop_eq_getElem_cons h, Nat.sub_self,
    List.set_cons_zero, List.length_append, List.length_singleton, List.append_assoc, List.singleton_append]

variable [Inhabited α]

theorem Memory.read_overlay_lt {j : Nat} (h : j < xs.length) (d : α) : (m.overlay xs).read j = xs.getD j d := by
  rw [read, overlay, List.getD_append _ _ _ _ h, List.getD_eq_getElem _ _ h, List.getD_eq_getElem _ _ h]

theorem Memory.read_overlay_ge {j : Nat} (h : xs.length ≤ j) : (m.overlay xs).read j = m.read j := by
  rw [read, overlay, List.getD_append_right _ _ _ _ h, List.getD_eq_getElem?_getD, List.getElem?_drop,
    Nat.add_sub_of_le h, read, List.getD_eq_getElem?_getD]

end

/-! ## The stream in parts -/

/-- The stream bits from `k` on are those of the bit-string. -/
def StreamFrom (bitbuf : Memory Word) (k : Nat) (p : BitString) : Prop :=
  ∀ i < p.length, streambit bitbuf (k + i) = p.getD i false

theorem streamFrom_zero_iff {bitbuf : Memory Word} {p : BitString} : StreamFrom bitbuf 0 p ↔ StreamIs bitbuf p := by
  simp only [StreamFrom, StreamIs, Nat.zero_add]

theorem streamFrom_append_iff {bitbuf : Memory Word} {k : Nat} {p q : BitString} :
    StreamFrom bitbuf k (p ++ q) ↔ StreamFrom bitbuf k p ∧ StreamFrom bitbuf (k + p.length) q := by
  refine ⟨fun h => ⟨fun i hi => ?_, fun i hi => ?_⟩, fun ⟨hp, hq⟩ i hi => ?_⟩
  · rw [h i (by rw [List.length_append]; omega), List.getD_append _ _ _ _ hi]
  · rw [Nat.add_assoc, h (p.length + i) (by rw [List.length_append]; omega),
      List.getD_append_right _ _ _ _ (Nat.le_add_right _ _), Nat.add_sub_cancel_left]
  · by_cases hlt : i < p.length
    · rw [hp i hlt, List.getD_append _ _ _ _ hlt]
    · have hle := Nat.le_of_not_lt hlt
      rw [List.length_append] at hi
      have := hq (i - p.length) (by omega)
      rwa [Nat.add_assoc, Nat.add_sub_of_le hle, ← List.getD_append_right _ _ _ _ hle] at this

/-! ## The loop over whole codes (R210, R212) -/

/-- After the last bit the cursor must be at the root (R214). -/
theorem decodeLoop_zero_root {s : State} {c : Cursor} (h : c.cur = s.root) (k : Nat) :
    decodeLoop s 0 k c = (c, .succeed) := by
  rw [decodeLoop, if_neg (not_not_intro h)]

theorem decodeLoop_zero_inside {s : State} {c : Cursor} (h : c.cur ≠ s.root) (k : Nat) : decodeLoop s 0 k c =
    (c, .fail .truncatedCode (BitVec.ofNat 32 c.count) (BitVec.ofNat 32 c.start)) := by
  rw [decodeLoop, if_pos h]

/-- The cursor between two codes: `syms` are emitted and the next code starts at stream index `k`; with a single leaf
`start` stays 0 (R212). -/
def cursorAt (s : State) (syms : List Byte) (k : Nat) : Cursor where
  count := syms.length
  cur := s.root
  start := if (s.node.read s.root.toNat).isLeaf then 0 else k
  symbuf := s.symbuf.overlay syms

theorem startCursor_eq_cursorAt (s : State) : startCursor s = cursorAt s [] 0 := by
  rw [startCursor, cursorAt, Memory.overlay_nil, ite_self, List.length_nil]

section
variable {s : State} {y : Byte} {f : Word} {k : Nat}

/-- With a single leaf a 0 bit is a code (R212). -/
theorem decodeBit_leafRoot_zero (hroot : s.node.read s.root.toNat = .leaf f y)
    (hbit : streambit s.bitbuf k = false) (c : Cursor) : decodeBit s k c = emit s.cfg.symbufDepth y k c := by
  simp [decodeBit, hroot, decodeLeafBit, hbit]

/-- With a single leaf a 1 bit is an error (R212). -/
theorem decodeBit_leafRoot_one (hroot : s.node.read s.root.toNat = .leaf f y)
    (hbit : streambit s.bitbuf k = true) (c : Cursor) : decodeBit s k c =
      .error (.fail .decodeFromSingleLeafTree (BitVec.ofNat 32 c.count) (BitVec.ofNat 32 k)) := by
  simp [decodeBit, hroot, decodeLeafBit, hbit]

end

section
variable {s : State} {y : Byte} {p : BitString} (hp : IsCode s.node s.root y p) {k : Nat}
  (hbits : StreamFrom s.bitbuf k p) {syms : List Byte} (left : Nat)
include hp hbits

/-- A whole code emits its symbol, or overflows SYMBUF at the code's last bit. -/
theorem decodeLoop_cursorAt :
    (syms.length ≠ s.cfg.symbufDepth → decodeLoop s (p.length + left) k (cursorAt s syms k) =
      decodeLoop s left (k + p.length) { cursorAt s syms (k + p.length) with
        count := syms.length + 1, symbuf := (s.symbuf.overlay syms).write syms.length y }) ∧
    (syms.length = s.cfg.symbufDepth → ∃ w, decodeLoop s (p.length + left) k (cursorAt s syms k) =
      ({ cursorAt s syms k with cur := w },
        .fail .symBufOverflow (BitVec.ofNat 32 syms.length) (BitVec.ofNat 32 (k + p.length - 1)))) := by
  cases hroot : s.node.read s.root.toNat with
  | leaf f sym =>
    obtain ⟨rfl, rfl⟩ := (isCode_leafRoot_iff hroot).1 hp
    have hbit : streambit s.bitbuf k = false := hbits 0 Nat.one_pos
    rw [List.length_singleton, Nat.add_comm 1 left, decodeLoop, decodeBit_leafRoot_zero hroot hbit, emit]
    refine ⟨fun hroom => ?_, fun hfull => ⟨s.root, ?_⟩⟩
    · simp [cursorAt, hroot, Node.isLeaf, hroom]
    · simp [cursorAt, hfull]
  | internal f l r =>
    have hpath := (isCode_internalRoot_iff hroot).1 hp
    obtain ⟨b, q, rfl, -⟩ := (leadsTo_internal_iff hroot).1 hpath
    have hinternal : (s.node.read s.root.toNat).isLeaf = false := by rw [hroot, Node.isLeaf]
    have hcode := decodeLoop_code s hinternal (b :: q) left k (cursorAt s syms k) y (List.cons_ne_nil b q) hpath hbits
    simpa [cursorAt, hinternal] using hcode

theorem decodeLoop_cursorAt_code (hsymbuf : s.symbuf.length = s.cfg.symbufDepth)
    (hroom : syms.length < s.cfg.symbufDepth) :
    decodeLoop s (p.length + left) k (cursorAt s syms k) =
      decodeLoop s left (k + p.length) (cursorAt s (syms ++ [y]) (k + p.length)) := by
  rw [(decodeLoop_cursorAt hp hbits left).1 hroom.ne, Memory.write_overlay (hroom.trans_eq hsymbuf.symm), cursorAt,
    cursorAt, List.length_append, List.length_singleton]

end

/-- Whole codes emit their symbols while SYMBUF has room for them. -/
theorem decodeLoop_cursorAt_codes {s : State} (hsymbuf : s.symbuf.length = s.cfg.symbufDepth) {syms : List Byte}
    {codes : List BitString} (hcodes : AreCodes s.node s.root syms codes) {before : List Byte} {k : Nat}
    (hbits : StreamFrom s.bitbuf k codes.flatten) (hroom : before.length + syms.length ≤ s.cfg.symbufDepth)
    (left : Nat) :
    decodeLoop s (codes.flatten.length + left) k (cursorAt s before k) =
      decodeLoop s left (k + codes.flatten.length) (cursorAt s (before ++ syms) (k + codes.flatten.length)) := by
  unfold AreCodes at hcodes
  induction hcodes generalizing before k with
  | nil => simp
  | @cons y p syms codes hp hcodes ih =>
    rw [List.flatten_cons, streamFrom_append_iff] at hbits
    obtain ⟨hhead, htail⟩ := hbits
    rw [List.length_cons] at hroom
    rw [List.flatten_cons, List.length_append, Nat.add_assoc,
      decodeLoop_cursorAt_code hp hhead _ hsymbuf (by omega),
      ih htail (by rw [List.length_append, List.length_singleton]; omega), List.append_assoc, List.singleton_append,
      Nat.add_assoc]

/-- From its first bit on, the loop passes the codes of the symbols with which the stream begins. -/
theorem decodeLoop_startCursor {s : State} (hwf : s.memoryWf = true) {syms : List Byte} {codes : List BitString}
    (hcodes : AreCodes s.node s.root syms codes) (hbits : StreamFrom s.bitbuf 0 codes.flatten)
    (hroom : syms.length ≤ s.cfg.symbufDepth) (left : Nat) :
    decodeLoop s (codes.flatten.length + left) 0 (startCursor s) =
      decodeLoop s left codes.flatten.length (cursorAt s syms codes.flatten.length) := by
  obtain ⟨-, -, -, -, hsymbuf, -⟩ := (State.memoryWf_iff s).1 hwf
  rw [startCursor_eq_cursorAt]
  simpa using decodeLoop_cursorAt_codes hsymbuf hcodes (before := []) hbits (by simpa using hroom) left

/-- What the obligations say of SYMBUF: the symbols from 0 on, every other entry unchanged. -/
theorem overlay_symbuf_spec {s : State} (hwf : s.memoryWf = true) {syms : List Byte}
    (hroom : syms.length ≤ s.cfg.symbufDepth) :
    (s.symbuf.overlay syms).length = s.symbuf.length ∧
      (∀ j < syms.length, (s.symbuf.overlay syms).read j = syms.getD j 0#8) ∧
      ∀ j, syms.length ≤ j → j < (s.symbuf.overlay syms).length →
        (s.symbuf.overlay syms).read j = s.symbuf.read j := by
  obtain ⟨-, -, -, -, hsymbuf, -⟩ := (State.memoryWf_iff s).1 hwf
  exact ⟨Memory.length_overlay (hroom.trans_eq hsymbuf.symm), fun j hj => Memory.read_overlay_lt hj _,
    fun j hj _ => Memory.read_overlay_ge hj⟩

/-! ## What DECODE reads (R211) -/

/-- The loop reads the configuration, the tree and the stream only. -/
theorem decodeLoop_congr {s s' : State} (hcfg : s'.cfg = s.cfg) (hnode : s'.node = s.node) (hroot : s'.root = s.root)
    (hbitbuf : s'.bitbuf = s.bitbuf) (left k : Nat) (c : Cursor) :
    decodeLoop s' left k c = decodeLoop s left k c := by
  induction left generalizing k c with
  | zero => rw [decodeLoop, decodeLoop, hroot]
  | succ left ih => simp only [decodeLoop, decodeBit, hcfg, hnode, hroot, hbitbuf, ih]

/-- The state with another FREQ, code memory and `CODES_VALID`. -/
def State.replaceCodes (freq : Memory Word) (code : Memory CodeEntry) (valid : Bool) (s : State) : State :=
  { s with freq := freq, code := code, codesValid := valid }

section
variable (freq : Memory Word) (code : Memory CodeEntry) (valid : Bool) (s : State)

theorem finish_replaceCodes (e : Ending) :
    finish e (s.replaceCodes freq code valid) = (finish e s).replaceCodes freq code valid := by
  cases e <;> rfl

theorem writeSymbols_replaceCodes (c : Cursor) (e : Ending) :
    writeSymbols c e (s.replaceCodes freq code valid) = (writeSymbols c e s).replaceCodes freq code valid := by
  cases e <;> rfl

theorem runDecode_replaceCodes (l : Nat) :
    runDecode l (s.replaceCodes freq code valid) =
      ((runDecode l s).1.replaceCodes freq code valid, (runDecode l s).2) := by
  have hloop : decodeLoop (s.replaceCodes freq code valid) l 0 (startCursor (s.replaceCodes freq code valid)) =
      decodeLoop s l 0 (startCursor s) :=
    decodeLoop_congr (s := s) (s' := s.replaceCodes freq code valid) rfl rfl rfl rfl l 0 _
  rw [runDecode, runDecode, hloop, writeSymbols_replaceCodes]
  by_cases hl : s.cfg.bitcap < l
  · rw [if_pos hl]
    exact if_pos hl
  by_cases hcount : s.nodeCount = 0#10
  · rw [if_neg hl, if_pos hcount]
    exact (if_neg hl).trans (if_pos hcount)
  · rw [if_neg hl, if_neg hcount]
    exact (if_neg hl).trans (if_neg hcount)

theorem exec_decode_replaceCodes (l : Nat) :
    exec (.decode l) (s.replaceCodes freq code valid) =
      .next ((finish (runDecode l s).2 (runDecode l s).1).replaceCodes freq code valid) := by
  rw [exec, execDecode, runDecode_replaceCodes, finish_replaceCodes]

end

/-! ## What a successful ENCODE wrote (R190) -/

/-- A loop of ENCODE that succeeds met symbols with codes only, and appended these codes. -/
theorem encodeLoop_of_succeed {s : State} {left i : Nat} {stream : BitString}
    (h : (encodeLoop s left i stream).ending = .succeed) :
    (∀ k < left, (s.code.read (s.symbuf.read (i + k)).toNat).valid = true) ∧
      encodeLoop s left i stream = ⟨stream ++ codesFrom s i left, .succeed⟩ := by
  induction left generalizing i stream with
  | zero => exact ⟨fun k hk => absurd hk (Nat.not_lt_zero k), by rw [encodeLoop, codesFrom_zero, List.append_nil]⟩
  | succ left ih =>
    rw [encodeLoop] at h ⊢
    split at h
    · cases h
    next hvalid =>
    split at h
    · cases h
    next hfits =>
    obtain ⟨hrest, hloop⟩ := ih h
    rw [if_neg hvalid, if_neg hfits, hloop, codesFrom_succ, List.append_assoc]
    refine ⟨fun k hk => ?_, rfl⟩
    cases k with
    | zero => simpa using hvalid
    | succ k => simpa [Nat.add_assoc, Nat.add_comm 1] using hrest k (Nat.lt_of_succ_lt_succ hk)

/-- An ENCODE that sets DONE passed its checks, met symbols with codes only, and its stream is these codes. -/
theorem encodeLoop_of_exec_done {s t : State} {n : Nat} (hvalid : s.codesValid = true) (hbefore : s.done = false)
    (hexec : exec (.encode n) s = .next t) (hdone : t.done = true) :
    n ≤ s.cfg.symbufDepth ∧ (∀ y ∈ inputSymbols s n, (s.code.read y.toNat).valid = true) ∧
      encodeLoop s n 0 [] = ⟨(storedCodes s (inputSymbols s n)).flatten, .succeed⟩ := by
  have hfailed {e : ErrCode} {i0 i1 : Word} {u : State}
      (h : exec (.encode n) s = .next (errorEntry e i0 i1 u)) (hu : u.done = false) : False := by
    rw [h] at hexec
    cases hexec
    rw [errorEntry_done, hu] at hdone
    cases hdone
  have hn : n ≤ s.cfg.symbufDepth := Nat.le_of_not_lt fun h => hfailed (exec_encode_badArgument h) hbefore
  have hend : (encodeLoop s n 0 []).ending = .succeed := by
    cases hloop : encodeLoop s n 0 [] with
    | mk stream ending =>
      cases ending with
      | succeed => rfl
      | fail e i0 i1 => exact (hfailed (exec_encode_fail hn hvalid hloop) hbefore).elim
  obtain ⟨hcodes, hloop⟩ := encodeLoop_of_succeed hend
  refine ⟨hn, fun y hy => ?_, by rw [hloop, codesFrom_inputSymbols, List.nil_append]⟩
  obtain ⟨k, hk, rfl⟩ := List.mem_map.1 hy
  simpa using hcodes k (List.mem_range.1 hk)

@[simp] theorem length_inputSymbols (s : State) (n : Nat) : (inputSymbols s n).length = n := by
  rw [inputSymbols, List.length_map, List.length_range]

theorem getD_inputSymbols (s : State) {n j : Nat} (h : j < n) (d : Byte) :
    (inputSymbols s n).getD j d = s.symbuf.read j := by
  rw [List.getD_eq_getElem _ _ (by simpa using h)]
  simp [inputSymbols]

/-- A number of bits that BITBUF holds fits `ENC_BITLEN` (R39). -/
theorem toNat_ofNat_of_le_bitcap {c : Config} (hc : c.wf = true) {n : Nat} (h : n ≤ c.bitcap) :
    (BitVec.ofNat 32 n).toNat = n := by
  obtain ⟨-, -, -, hwords⟩ := (Config.wf_iff c).1 hc
  rw [Config.bitcap] at h
  exact Nat.mod_eq_of_lt (by omega)

/-- While the codes are valid, the code memory holds for each symbol with a code the code of the tree (R36). -/
theorem Inv.areCodes_storedCodes {s : State} (h : Inv s) (hvalid : s.codesValid = true) {syms : List Byte}
    (hsyms : ∀ y ∈ syms, (s.code.read y.toNat).valid = true) :
    AreCodes s.node s.root syms (storedCodes s syms) := by
  obtain ⟨-, -, -, hlen, -⟩ := (State.memoryWf_iff s).1 h.memory
  obtain ⟨hcount, hgen⟩ := h.codes hvalid
  have hrecords := (h.tree.isTree hcount).generateCodes_recordsCodes hlen
  rw [hgen] at hrecords
  rw [AreCodes, storedCodes, List.forall₂_map_right_iff, List.forall₂_same]
  intro y hy
  obtain ⟨p, hp, hread⟩ := hrecords.exists_isCode (hsyms y hy)
  rw [hread]
  exact hp

/-! ## The statements -/

/-- Settles O45: the checks come in this order and before any write. -/
theorem decodeArgumentAndTreeChecked : Obligations.DecodeArgumentAndTreeChecked := by
  unfold Obligations.DecodeArgumentAndTreeChecked
  exact fun s l => ⟨exec_decode_badArgument, exec_decode_noTree⟩

/-- Settles O46: after the codes no bit is left and the cursor is at the root. -/
theorem decodeCompletes : Obligations.DecodeCompletes := by
  unfold Obligations.DecodeCompletes
  intro s syms codes hwf hcount hcodes hbits hfits hroom
  have hloop := decodeLoop_startCursor hwf hcodes (streamFrom_zero_iff.2 hbits) hroom 0
  rw [decodeLoop_zero_root rfl] at hloop
  exact ⟨_, exec_decode_succeed hfits hcount hloop, overlay_symbuf_spec hwf hroom⟩

/-- Settles O47: after the codes the rest of the stream leads to an internal node other than the root, as no path
leads back to the root. -/
theorem decodeReportsTruncatedCode : Obligations.DecodeReportsTruncatedCode := by
  unfold Obligations.DecodeReportsTruncatedCode
  intro s syms codes tail x hwf hcount htree hroot hcodes hne hpath hx hbits hfits hroom
  obtain ⟨hwhole, hpart⟩ := streamFrom_append_iff.1 (streamFrom_zero_iff.2 hbits)
  rw [Nat.zero_add] at hpart
  have hxroot : x ≠ s.root := by
    rintro rfl
    exact hne ((htree.isTree hcount).eq_nil_of_follow_root hpath)
  have hloop := decodeLoop_startCursor hwf hcodes hwhole hroom (tail.length + 0)
  rw [decodeLoop_path s hroot tail 0 _ _ x hpath hx hpart, decodeLoop_zero_inside hxroot, Nat.add_zero,
    ← List.length_append] at hloop
  simp only [cursorAt, hroot] at hloop
  exact ⟨_, exec_decode_fail hfits hcount hloop, overlay_symbuf_spec hwf hroom⟩

/-- Settles O48: each 0 bit is a code of the leaf's symbol, and the 1 bit after them is refused. -/
theorem decodeOneBitOfSingleLeafFails : Obligations.DecodeOneBitOfSingleLeafFails := by
  unfold Obligations.DecodeOneBitOfSingleLeafFails
  intro s l k f y hwf hcount hroot hfits hkl hroom hzero hone
  have hcodes : AreCodes s.node s.root (List.replicate k y) (List.replicate k [false]) :=
    List.forall₂_iff_get.2 ⟨by simp, fun i hi hi' => (isCode_leafRoot_iff hroot).2 (by simp)⟩
  have hflat : (List.replicate k [false]).flatten = List.replicate k false := List.flatten_replicate_singleton
  have hbits : StreamFrom s.bitbuf 0 (List.replicate k false) :=
    streamFrom_zero_iff.2 fun i hi => by
      rw [List.length_replicate] at hi
      rw [hzero i hi, List.getD_replicate _ hi]
  have hloop := decodeLoop_startCursor hwf hcodes (hflat ▸ hbits) (by simpa using hroom) (l - k - 1 + 1)
  rw [hflat, List.length_replicate, show k + (l - k - 1 + 1) = l by omega, decodeLoop,
    decodeBit_leafRoot_one hroot hone] at hloop
  simp only [cursorAt, List.length_replicate] at hloop
  obtain ⟨hlength, hread, hkept⟩ := overlay_symbuf_spec hwf (syms := List.replicate k y) (by simpa using hroom)
  rw [List.length_replicate] at hread hkept
  exact ⟨_, exec_decode_fail hfits hcount hloop, hlength, fun j hj => (hread j hj).trans (List.getD_replicate _ hj),
    hkept⟩

/-- Settles O49: the codes fill SYMBUF, and one more code overflows it at its last bit. -/
theorem decodeReportsFullBuffer : Obligations.DecodeReportsFullBuffer := by
  unfold Obligations.DecodeReportsFullBuffer
  intro s l syms codes y p hwf hcount hcodes hp hbits hfull hlong hfits
  obtain ⟨hwhole, hlast⟩ := streamFrom_append_iff.1 (streamFrom_zero_iff.2 hbits)
  rw [Nat.zero_add] at hlast
  obtain ⟨left, rfl⟩ := Nat.exists_eq_add_of_le hlong
  obtain ⟨w, hover⟩ := (decodeLoop_cursorAt hp hlast left).2 hfull
  have hloop := (decodeLoop_startCursor hwf hcodes hwhole hfull.le (p.length + left)).trans hover
  rw [← Nat.add_assoc, ← List.length_append, hfull] at hloop
  obtain ⟨hlength, hread, -⟩ := overlay_symbuf_spec hwf hfull.le
  exact ⟨_, exec_decode_fail hfits hcount hloop, hlength, hread⟩

/-- Settles O50: the run commutes with replacing FREQ and the code table, and so does its completion. -/
theorem decodeReadsNoCodeTable : Obligations.DecodeReadsNoCodeTable := by
  unfold Obligations.DecodeReadsNoCodeTable
  intro s t l freq code valid hexec
  cases hexec
  exact exec_decode_replaceCodes freq code valid s l

/-- Settles O51: the stream that ENCODE wrote is the input symbols' codes in the tree, which DECODE completes on. -/
theorem decodeInvertsEncode : Obligations.DecodeInvertsEncode := by
  unfold Obligations.DecodeInvertsEncode
  intro s t u n hinv hvalid hbefore hexec hdone huwf hcfg hnode hcount hroot hbitbuf
  obtain ⟨hwf, -⟩ := (State.memoryWf_iff s).1 hinv.memory
  obtain ⟨hn, hcoded, hloop⟩ := encodeLoop_of_exec_done hvalid hbefore hexec hdone
  have hfits := length_encodeLoop_le (hinv.codes.lenIsLength hinv.tree hvalid) n 0 (stream := []) (Nat.zero_le _)
  simp only [hloop] at hfits
  rw [exec_encode_succeed hn hvalid hloop] at hexec
  cases hexec
  have hwords := paddedWords_le_length_bitbuf hinv.memory hfits
  have hcodes : AreCodes u.node u.root (inputSymbols s n) (storedCodes s (inputSymbols s n)) :=
    hnode ▸ hroot ▸ hinv.areCodes_storedCodes hvalid hcoded
  have hstream : StreamIs u.bitbuf (storedCodes s (inputSymbols s n)).flatten :=
    hbitbuf ▸ fun k hk => streambit_pack _ hwords (by omega)
  obtain ⟨m, hdecode, hlength, hread, hkept⟩ := decodeCompletes u _ _ huwf (hcount ▸ (hinv.codes hvalid).1) hcodes
    hstream (hcfg ▸ hfits) (by rw [length_inputSymbols, hcfg]; exact hn)
  rw [length_inputSymbols] at hdecode hread hkept
  refine ⟨rfl, m, ?_, hlength, fun j hj => by rw [hread j hj, getD_inputSymbols _ hj], hkept⟩
  rwa [toNat_ofNat_of_le_bitcap hwf hfits]

end Sys2Proof.Machine
end

section
/-! PROOFS. The flags of the host (spec 60_exceptions.md R237, R238): a write to `STATUS` acknowledges the bits written 1,
and the level of `irq` is that of the enabled flags. -/

namespace Sys2Proof.Machine

/-- A flag that is written 1 falls, and any other keeps its value (R237). -/
theorem acknowledge_eq (v : Word) (s : State) :
    acknowledge v s = { s with
      done := if v.getLsbD 1 then false else s.done
      err := if v.getLsbD 2 then false else s.err
      ovr := if v.getLsbD 3 then false else s.ovr } := by
  have hflag (flag written : Bool) : (flag && !written) = if written then false else flag := by
    cases written <;> simp
  simp only [acknowledge, hflag]

/-- A write to `STATUS` is performed in every state, busy or not (R66, R237). -/
theorem step_writeStatus (s : State) (v : Word) (rest : List Event) :
    step (s.withInputs (writeEvent 0x0010#16 v :: rest)) =
      .next ((acknowledge v (s.withInputs rest)).withResponse 0#32 false) :=
  step_writeEvent_csr s rest .status v

theorem irq_eq_true_iff (s : State) :
    irq s = true ↔
      (s.done = true ∧ s.doneIe = true) ∨ (s.err = true ∧ s.errIe = true) ∨ (s.ovr = true ∧ s.ovrIe = true) := by
  simp only [irq, Bool.or_eq_true, Bool.and_eq_true, or_assoc]

/-- Without a flag there is no interrupt, whatever is enabled. -/
theorem irq_eq_false {s : State} (hdone : s.done = false) (herr : s.err = false) (hovr : s.ovr = false) :
    irq s = false := by
  simp [irq, hdone, herr, hovr]

/-- Settles O20: the write is the acknowledgement of `v`. -/
theorem statusWriteClearsFlags : Obligations.StatusWriteClearsFlags := by
  unfold Obligations.StatusWriteClearsFlags
  intro s v rest
  rw [step_writeStatus, acknowledge_eq]
  rfl

/-- Settles O22: the bits 1, 2 and 3 of 0xE are set, so the write clears all three flags. -/
theorem interruptLevelFollowsFlags : Obligations.InterruptLevelFollowsFlags := by
  unfold Obligations.InterruptLevelFollowsFlags
  exact ⟨irq_eq_true_iff, fun s rest => ⟨_, step_writeStatus s _ rest, irq_eq_false (by simp) (by simp) (by simp)⟩⟩

end Sys2Proof.Machine
end

section
/-! PROOFS. What is read after a reset (spec 10_state.md R20; 70_reset_and_hazards.md R260, R261, R263): both resets end
in the reset values of the registers, and those values alone fix the register, NODE and CODE reads. -/

namespace Sys2Proof.Machine

variable (s : State)

/-! ## The reads of the reset values -/

@[simp] theorem flagAt_false (pos : Nat) : flagAt false pos = 0#32 := BitVec.zero_shiftLeft pos

theorem statusWord_resetRegisters : statusWord (resetRegisters s) = 0#32 := by
  simp [statusWord, treeValid]

theorem ieWord_resetRegisters : ieWord (resetRegisters s) = 0#32 := by
  simp [ieWord]

/-- All but the two constants of the configuration, ID and CONFIG, read 0 (R24, R25, R261). -/
theorem readCsr_resetRegisters {r : Csr} (hid : r ≠ .id) (hconfig : r ≠ .config) :
    readCsr r (resetRegisters s) = 0#32 := by
  cases r with
  | id => exact absurd rfl hid
  | config => exact absurd rfl hconfig
  | status => exact statusWord_resetRegisters s
  | ie => exact ieWord_resetRegisters s
  | _ => rfl

theorem readCsr_config_congr {s t : State} (h : t.cfg = s.cfg) : readCsr .config t = readCsr .config s := by
  simp only [readCsr, h]

theorem irq_resetRegisters : irq (resetRegisters s) = false := irq_eq_false rfl rfl rfl

/-- NODE_COUNT is 0, so no word of the region is of a node (R70, R261). -/
theorem readNode_resetRegisters (i w : Nat) : readNode i w (resetRegisters s) = 0#32 := readNode_free i.zero_le w

/-- CODES_VALID is 0, so no symbol has a code (R71, R261). -/
theorem readCode_resetRegisters (y w : Nat) : readCode y w (resetRegisters s) = 0#32 := readCode_free (.inl rfl) w

/-! ## Both resets -/

/-- A hardware reset draws the memories anew and answers the access in flight; the rest of the state is the reset
values (R260, R262). -/
theorem hardwareReset_eq_resetRegisters (f : Option Access) :
    ∃ m : State, hardwareReset f s = resetRegisters m ∧ m.cfg = s.cfg ∧ m.inputs = s.inputs :=
  ⟨{ drawFreq (drawNode (drawCode (drawSymbuf (drawBitbuf s)))) with resp := f.map (inFlightResponse s.draws) },
    rfl, by simp, by simp⟩

/-- A soft reset and the answer to the write that asked for it leave the reset values as well (R263). -/
theorem softReset_withResponse_eq_resetRegisters (d : Word) (b : Bool) :
    ∃ m : State, (softReset s).withResponse d b = resetRegisters m ∧ m.cfg = s.cfg ∧ m.inputs = s.inputs :=
  ⟨(abandonIfBusy s).withResponse d b, rfl, softReset_cfg s, softReset_inputs s⟩

/-- The step of either reset ends in the reset values of the registers, over memories and a response that the kind of
reset decides (R260, R263). -/
theorem step_reset {s : State} {ev : Event} (rest : List Event)
    (hev : (∃ f, ev = .hardwareReset f) ∨ ∃ v, ev = writeEvent 0x0008#16 v ∧ v.getLsbD 0 = true) :
    ∃ m : State, step (s.withInputs (ev :: rest)) = .next (resetRegisters m) ∧ m.cfg = s.cfg ∧ m.inputs = rest := by
  obtain ⟨f, rfl⟩ | ⟨v, rfl, hv⟩ := hev
  · obtain ⟨m, e, hm⟩ := hardwareReset_eq_resetRegisters (s.withInputs rest) f
    exact ⟨m, congrArg Host.Outcome.next e, hm⟩
  · have hstep := step_writeEvent_csr s rest .ctrl v
    obtain ⟨m, e, hm⟩ := softReset_withResponse_eq_resetRegisters (s.withInputs rest) 0#32 false
    rw [writeCsr, if_pos hv, e] at hstep
    exact ⟨m, hstep, hm⟩

/-- Settles O53: both resets end in the reset values, whose reads are the lemmas above. -/
theorem resetReadsResetValues : Obligations.ResetReadsResetValues := by
  unfold Obligations.ResetReadsResetValues
  intro s ev rest hev
  obtain ⟨m, hstep, hcfg, hinputs⟩ := step_reset rest hev
  refine ⟨resetRegisters m, hstep, hcfg, hinputs, irq_resetRegisters m, fun r => ?_, readNode_resetRegisters m,
    readCode_resetRegisters m⟩
  cases r with
  | id => rfl
  | config => exact readCsr_config_congr hcfg
  | _ => exact readCsr_resetRegisters m nofun nofun

end Sys2Proof.Machine
end
